-- ==== Sys2Proof/Word.lean ====
section
/-! DEFINITION. The word types of IRFE: the 32-bit register word (spec 10_state.md R22), the byte offset of a bus
access (R21), and the bytes of the byte pair (30_encoding.md R77). -/

namespace Sys2Proof

/-- A whole 32-bit register or command word. -/
abbrev Word := BitVec 32

/-- Eight bits: a byte of the frame, or a byte lane of the bus. -/
abbrev Byte := BitVec 8

/-- A byte offset into the 256-byte register window. -/
abbrev Offset := BitVec 8

/-- A 4-bit code of the command triple (30_encoding.md R71). -/
abbrev Nibble := BitVec 4

/-- One entry of the duration table, in microseconds (30_encoding.md R70). -/
abbrev Micros := BitVec 16

end Sys2Proof
end

