-- ==== Sys2Proof/Syntax.lean ====
section
/-! DEFINITION. The commands of IRFE, one constructor per row of spec/opcode_table.json. No command has an operand field
(30_encoding.md R74). -/

namespace Sys2Proof

/-- A command: what a decoded write to CMD runs (30_encoding.md R75). -/
inductive Instr where
  /-- no effect (42_commands.md R151) -/
  | nop
  /-- run the frame encoder on the triple in IN (R152) -/
  | encode
  /-- play the duration table out on `ir_mark` (R153) -/
  | send
  /-- stop the serializer (R154) -/
  | abort
  /-- discard the held result (R155) -/
  | clear
  deriving DecidableEq, Repr

end Sys2Proof
end

