-- ==== Sys2Proof/WellFormed.lean ====
section
/-! DEFINITION. Well-formedness. A command has no operand, so every term of `Instr` is well formed; what can be ill formed
is the command word's pair of fields (30_encoding.md R74, R75) and a host's register access (20_memory.md R54). -/

namespace Sys2Proof

/-- No constructor of `Instr` has an operand that a check could refuse. -/
def Instr.wf : Instr → Bool
  | .nop => true
  | .encode => true
  | .send => true
  | .abort => true
  | .clear => true

/-- The two fields of the CMD format: OP is bits 3:0, MBZ is bits 31:4 (30_encoding.md R74). -/
structure CmdFields where
  op  : BitVec 4
  mbz : BitVec 28
  deriving DecidableEq, Repr

/-- Bits 31:4 must be zero (R74). -/
def mbzIsZero (f : CmdFields) : Bool := f.mbz == 0#28

/-- OP is one of the five that R75 assigns. -/
def opIsAssigned (f : CmdFields) : Bool := f.op ≤ 4#4

/-- The fields are those of a legal command word (R75, R76). -/
def CmdFields.wf (f : CmdFields) : Bool := mbzIsZero f && opIsAssigned f

/-- The access width is 32 bits: `bus_size = 2` (20_memory.md R54). -/
def sizeIsWord (size : BitVec 2) : Bool := size == 2#2

/-- The offset is a multiple of 4 (20_memory.md R54). -/
def offsetIsAligned (off : Offset) : Bool := off.extractLsb' 0 2 == 0#2

/-- An access that R54 defines; any other is a bus error (R55). -/
def accessIsDefined (size : BitVec 2) (off : Offset) : Bool := sizeIsWord size && offsetIsAligned off

end Sys2Proof
end

