-- ==== Sys2Proof/Decode.lean ====
section
/-! DEFINITION. Command decode (30_encoding.md R74 to R76), total on any word and on any bytes, and the encoder. -/

namespace Sys2Proof

/-- Why a command word or a byte string is no command. Every reason but `truncated` is the error ILLEGAL_CMD of the
machine (42_commands.md R156); `truncated` never arises on the bus, whose accesses carry 32 bits. -/
inductive DecodeReject where
  /-- bits 31:4 are not all zero -/
  | mbzNotZero
  /-- OP is in 0x5..0xF -/
  | opNotAssigned
  /-- fewer than four bytes -/
  | truncated
  deriving DecidableEq, Repr

/-- One row of the table of R75: the word matches when `w &&& mask = pattern`. -/
structure CmdRow where
  pattern : Word
  mask    : Word
  instr   : Instr
  deriving DecidableEq, Repr

/-- The table of 30_encoding.md R75. Every row's mask is 0xFFFFFFFF. -/
def cmdTable : List CmdRow :=
  [⟨0x00000000#32, 0xFFFFFFFF#32, .nop⟩,
   ⟨0x00000001#32, 0xFFFFFFFF#32, .encode⟩,
   ⟨0x00000002#32, 0xFFFFFFFF#32, .send⟩,
   ⟨0x00000003#32, 0xFFFFFFFF#32, .abort⟩,
   ⟨0x00000004#32, 0xFFFFFFFF#32, .clear⟩]

/-- A row matches a word. -/
def rowMatches (w : Word) (r : CmdRow) : Bool := (w &&& r.mask) == r.pattern

/-- The fields of a command word (R74). -/
def cmdFields (w : Word) : CmdFields := ⟨w.extractLsb' 0 4, w.extractLsb' 4 28⟩

/-- The command word of two fields (R74). -/
def cmdWord (f : CmdFields) : Word := f.mbz ++ f.op

/-- Decode the whole 32-bit word by the table of R75, rejecting every other word by name (R76). -/
def decodeWord (w : Word) : Except DecodeReject Instr :=
  match cmdTable.find? (rowMatches w) with
  | some r => .ok r.instr
  | none => .error (if mbzIsZero (cmdFields w) then .opNotAssigned else .mbzNotZero)

/-- Byte lane j of a word: bits [8j+7:8j], little-endian lane order (20_memory.md R56). -/
def wordLane (w : Word) (j : Nat) : Byte := w.extractLsb' (8 * j) 8

/-- The four bytes of a word in lane order (20_memory.md R56; log 13). -/
def wordBytes (w : Word) : List Byte := [wordLane w 0, wordLane w 1, wordLane w 2, wordLane w 3]

/-- The word of four bytes in lane order (20_memory.md R56; log 13). -/
def wordOfLanes (b0 b1 b2 b3 : Byte) : Word := b3 ++ b2 ++ b1 ++ b0

/-- Decode the command at the front of a byte string; the rest of the bytes comes back with it. -/
def decodeBytes : List Byte → Except DecodeReject (Instr × List Byte)
  | b0 :: b1 :: b2 :: b3 :: rest =>
    match decodeWord (wordOfLanes b0 b1 b2 b3) with
    | .ok i => .ok (i, rest)
    | .error e => .error e
  | _ => .error .truncated

/-- The command word of a command (30_encoding.md R75). -/
def encode : Instr → Word
  | .nop => 0x00000000#32
  | .encode => 0x00000001#32
  | .send => 0x00000002#32
  | .abort => 0x00000003#32
  | .clear => 0x00000004#32

/-- The bytes of a command's word, in lane order. -/
def encodeBytes (i : Instr) : List Byte := wordBytes (encode i)

/-- The decoder on an opcode-table word of `nbits` bits; the bits above `nbits` are 0, and a command is 32 bits. -/
def decodeTableWord (nbits w : Nat) : Option Instr :=
  if nbits ≤ 32 then
    match decodeBytes (wordBytes (BitVec.ofNat 32 (w % 2 ^ nbits))) with
    | .ok (i, _) => some i
    | .error _ => none
  else none

end Sys2Proof
end

