-- ==== Sys2Proof/Config.lean ====
section
/-! DEFINITION. What is fixed for the machine: the parameters of 00_scope.md R7, the two OPEN ones as constants with no
body, and the free values for what the spec does not state. -/

namespace Sys2Proof.Config

/-- `N_BITS`, the message length. -/
def nBits : Nat := 23

/-- `FRAME_BITS`, the length of one byte's frame. -/
def frameBits : Nat := 11

/-- `BIT_LENGTH`, microseconds per message bit. -/
def bitLength : Nat := 208

/-- `PAUSE`, microseconds added to the last entry. -/
def pause : Nat := 208

/-- `DUR_DEPTH`, the entries of the duration table. -/
def durDepth : Nat := 23

/-- `CARRIER_HZ`, informational: no rule reads it (41_serializer.md R137). -/
def carrierHz : Nat := 76000

/-- `MARK_POLARITY`: the bit value that is a mark is `0` (41_serializer.md R133). -/
def markBit : Bool := false

/-- `BASE_ADDR`, OPEN: the platform address of the register window (20_memory.md R50). Log 12. -/
opaque baseAddr : Nat

/-- `CLK_HZ`, OPEN: no rule reads it. Log 12. -/
opaque clkHz : Nat

/-- A free value: what stands on `bus_rdata` where the spec states no value. Logs 4 and 5. -/
opaque freeBusRdata : Nat → BitVec 32

/-- A free value: what stands on `bus_err` in a cycle with no access. Log 5. -/
opaque freeBusErr : Nat → Bool

end Sys2Proof.Config
end

