-- ==== Sys2Proof/Machine/State.lean ====
section
/-! DEFINITION. The architectural state of IRFE (10_state.md R20 to R36) as plain data, the pins of one clock cycle, the
reasons a step can stop, and the state after reset. -/

namespace Sys2Proof.Machine

/-- CTRL (10_state.md R23). -/
structure Ctrl where
  /-- bit 0, STRICT -/
  strict  : Bool
  /-- bit 1, IE_EDONE -/
  ieEdone : Bool
  /-- bit 2, IE_SDONE -/
  ieSdone : Bool
  /-- bit 3, IE_ERR -/
  ieErr   : Bool
  deriving DecidableEq, Repr

/-- IN, the command triple (10_state.md R24). -/
structure Triple where
  /-- bits 3:0, CH -/
  ch     : Nibble
  /-- bits 7:4, OR -/
  orange : Nibble
  /-- bits 11:8, YE -/
  yellow : Nibble
  deriving DecidableEq, Repr

/-- STATUS (10_state.md R26). -/
structure Status where
  /-- bit 0 -/
  valid   : Bool
  /-- bit 1 -/
  sbusy   : Bool
  /-- bit 2, W1C -/
  edone   : Bool
  /-- bit 3, W1C -/
  sdone   : Bool
  /-- bit 4, W1C -/
  err     : Bool
  /-- bit 5 -/
  ckovf   : Bool
  /-- bit 6 -/
  invcode : Bool
  /-- bits 11:8 -/
  errcode : BitVec 4
  deriving DecidableEq, Repr

/-- The result registers CHECK, BYTES, PARITY, MSG, RUNCNT and DUR (10_state.md R27 to R31, R33). -/
structure Results where
  /-- CHECK.CHECK, bits 4:0 -/
  check  : BitVec 5
  /-- CHECK.SUM4, bits 11:8 -/
  sum4   : BitVec 4
  /-- BYTES.BYTE1, bits 7:0 -/
  byte1  : Byte
  /-- BYTES.BYTE2, bits 15:8 -/
  byte2  : Byte
  /-- BYTES.REV1, bits 23:16 -/
  rev1   : Byte
  /-- BYTES.REV2, bits 31:24 -/
  rev2   : Byte
  /-- PARITY.P1, bit 0 -/
  p1     : Bool
  /-- PARITY.P2, bit 1 -/
  p2     : Bool
  /-- MSG, bits 22:0; bit 22 is the first bit sent -/
  msg    : BitVec 23
  /-- RUNCNT, bits 4:0 -/
  runcnt : BitVec 5
  /-- DUR[0..22].US, bits 15:0 of each -/
  dur    : Vector Micros 23
  deriving DecidableEq, Repr

/-- SERSTAT, the serializer's position (10_state.md R32). -/
structure SerStat where
  /-- bits 4:0, IDX -/
  idx   : BitVec 5
  /-- bit 8, LEVEL; drives `ir_mark` -/
  level : Bool
  /-- bits 31:16, REM -/
  rem   : Micros
  deriving DecidableEq, Repr

/-- The input ports as sampled on one rising edge of `clk` (10_state.md R21). -/
structure Pins where
  rstN     : Bool
  busSel   : Bool
  busWe    : Bool
  busAddr  : Offset
  busSize  : BitVec 2
  busWdata : Word
  usTick   : Bool
  deriving DecidableEq, Repr

/-- The whole machine: the registers of R22, the two registered bus outputs of R36, and two fields of the model's own:
the pins of the coming cycles (log 1) and the count of free values taken (log 6). -/
structure State where
  ctrl      : Ctrl
  inp       : Triple
  status    : Status
  res       : Results
  ser       : SerStat
  busErr    : Bool
  busRdata  : Word
  inputs    : List Pins
  freeCount : Nat
  deriving DecidableEq, Repr

/-- Why the machine stops. IRFE itself never does (60_exceptions.md R173). -/
inductive Fault where
  /-- Raised by the serializer step (`tick`) when it would read DUR[i] for an i of 23 or more, which 10_state.md R33 does
  not give. Safe: it is a stop, and no state reached from reset raises it (41_serializer.md R132, log 8). -/
  | serializerIndexOutsideTable
  deriving DecidableEq, Repr

/-- Why the model gives an instruction no meaning. -/
inductive Refusal where
  /-- Raised by an arm of `exec` for a command that has no meaning yet. Safe. No arm raises it now. -/
  | notModelled (mnemonic : String)
  deriving DecidableEq, Repr

/-- Every result register 0 (10_state.md R36). -/
def Results.zero : Results :=
  ⟨0, 0, 0, 0, 0, 0, false, false, 0, 0, Vector.replicate 23 0⟩

/-- SERSTAT = 0 (10_state.md R32, R36). -/
def SerStat.zero : SerStat := ⟨0, false, 0⟩

/-- The machine right after reset (10_state.md R36, 70_reset_and_hazards.md R190, R191). -/
def State.reset : State where
  ctrl := ⟨false, false, false, false⟩
  inp := ⟨0, 0, 0⟩
  status := ⟨false, false, false, false, false, false, false, 0⟩
  res := Results.zero
  ser := SerStat.zero
  busErr := false
  busRdata := 0
  inputs := []
  freeCount := 0

end Sys2Proof.Machine
end

