-- ==== Sys2Proof/Machine/Datapath.lean ====
section
/-! DEFINITION. The encode datapath, unit by unit in the order of 40_encode_datapath.md (R100 to R117). A sequence is a
list of bits in transmission order, `false` for `0` and `true` for `1` (00_scope.md R9). -/

namespace Sys2Proof.Machine

/-- The 4-bit masked sum `(c + o + y) & 0xF`, taken from the exact 6-bit sum (R100). -/
def maskedSum (c o y : Nibble) : BitVec 4 :=
  (c.setWidth 6 + o.setWidth 6 + y.setWidth 6).extractLsb' 0 4

/-- The 5-bit check digit `16 - sum4`, 1 to 16 (R100). -/
def checkDigit (sum4 : BitVec 4) : BitVec 5 := 16#5 - sum4.setWidth 5

/-- byte1 = `{c, o}` (R102). -/
def assembleByte1 (c o : Nibble) : Byte := c ++ o

/-- byte2: the 9-bit `y * 16 + chk`, its bit 8 discarded (R103). -/
def assembleByte2 (y : Nibble) (chk : BitVec 5) : Byte :=
  (y.setWidth 9 * 16#9 + chk.setWidth 9).extractLsb' 0 8

/-- rev8(b)[i] = b[7 - i] (R105). The leftmost bit written here is bit 7 of the result. -/
def rev8 (b : Byte) : Byte :=
  BitVec.ofBool b[0] ++ BitVec.ofBool b[1] ++ BitVec.ofBool b[2] ++ BitVec.ofBool b[3] ++
    BitVec.ofBool b[4] ++ BitVec.ofBool b[5] ++ BitVec.ofBool b[6] ++ BitVec.ofBool b[7]

/-- The exclusive or of all eight bits (R107). -/
def xor8 (r : Byte) : Bool :=
  r[0] ^^ r[1] ^^ r[2] ^^ r[3] ^^ r[4] ^^ r[5] ^^ r[6] ^^ r[7]

/-- The odd-parity bit of a reversed byte (R107). -/
def oddParity (r : Byte) : Bool := !xor8 r

/-- The 11-bit frame of a reversed byte and its parity bit: start `0`, r[7] down to r[0], parity, stop `1` (R109). -/
def frame (r : Byte) (p : Bool) : List Bool :=
  [false, r[7], r[6], r[5], r[4], r[3], r[2], r[1], r[0], p, true]

/-- The 23-bit message: frame 1, the separator `1`, frame 2 (R110). -/
def message (r1 : Byte) (p1 : Bool) (r2 : Byte) (p2 : Bool) : List Bool :=
  frame r1 p1 ++ true :: frame r2 p2

/-- The MSG register of a message: MSG[22 - k] = m(k), so the first bit sent is the most significant (10_state.md R27). -/
def msgRegister (m : List Bool) : BitVec 23 :=
  BitVec.ofNat 23 (m.foldl (fun n b => 2 * n + b.toNat) 0)

/-- The run lengths of a scan that is inside a run of `prev` of length `len` (R111). -/
def runsFrom (prev : Bool) (len : Nat) : List Bool → List Nat
  | [] => [len]
  | b :: t => if b = prev then runsFrom prev (len + 1) t else len :: runsFrom b 1 t

/-- The run lengths of a message, scanned left to right (R111). -/
def runs : List Bool → List Nat
  | [] => []
  | b :: t => runsFrom b 1 t

/-- The duration lookup, microseconds of a run of `len` bits (R113). -/
def lut (len : Nat) : Micros := BitVec.ofNat 16 (len * Config.bitLength)

/-- Entry i of the duration table for the run lengths `ls`: the last run gets PAUSE, the entries past it are 0 (R113). -/
def durationEntry (ls : List Nat) (i : Nat) : Micros :=
  if i + 1 < ls.length then lut (ls.getD i 0)
  else if i + 1 = ls.length then lut (ls.getD i 0) + BitVec.ofNat 16 Config.pause
  else 0

/-- The duration table of the run lengths `ls` (R113). -/
def durationTable (ls : List Nat) : Vector Micros 23 := Vector.ofFn fun i => durationEntry ls i.val

/-- The run count as RUNCNT holds it (R112). -/
def runCount (ls : List Nat) : BitVec 5 := BitVec.ofNat 5 ls.length

/-- The message of a triple (R100 to R110). -/
def messageOf (c o y : Nibble) : List Bool :=
  let r1 := rev8 (assembleByte1 c o)
  let r2 := rev8 (assembleByte2 y (checkDigit (maskedSum c o y)))
  message r1 (oddParity r1) r2 (oddParity r2)

/-- `encode(c, o, y)`: every result register, from the triple alone (R117). -/
def encodeTriple (t : Triple) : Results :=
  let sum4 := maskedSum t.ch t.orange t.yellow
  let chk := checkDigit sum4
  let b1 := assembleByte1 t.ch t.orange
  let b2 := assembleByte2 t.yellow chk
  let m := messageOf t.ch t.orange t.yellow
  { check := chk
    sum4 := sum4
    byte1 := b1
    byte2 := b2
    rev1 := rev8 b1
    rev2 := rev8 b2
    p1 := oddParity (rev8 b1)
    p2 := oddParity (rev8 b2)
    msg := msgRegister m
    runcnt := runCount (runs m)
    dur := durationTable (runs m) }

end Sys2Proof.Machine
end

