-- ==== Sys2Proof/Machine/Operands.lean ====
section
/-! DEFINITION. The operands of IRFE: which register an offset names (10_state.md R22), the fields of a written IN and
CTRL word (R23, R24), and which codes of the triple are members (30_encoding.md R72). -/

namespace Sys2Proof.Machine

/-- A register of the window (10_state.md R22). -/
inductive Reg where
  | ctrl
  | inp
  | cmd
  | status
  | check
  | bytes
  | parity
  | msg
  | runcnt
  | serstat
  | dur (i : Fin 23)
  deriving DecidableEq, Repr

/-- The offset of a register (10_state.md R22). -/
def regOffset : Reg → Offset
  | .ctrl => 0x00
  | .inp => 0x04
  | .cmd => 0x08
  | .status => 0x0C
  | .check => 0x10
  | .bytes => 0x14
  | .parity => 0x18
  | .msg => 0x1C
  | .runcnt => 0x20
  | .serstat => 0x24
  | .dur i => BitVec.ofNat 8 (0x40 + 4 * i.val)

/-- The index of the DUR entry at an offset of 0x40 to 0x98, a multiple of 4 (10_state.md R33). -/
def durIndexAt (off : Offset) : Option (Fin 23) :=
  if h : 0x40 ≤ off.toNat ∧ off.toNat % 4 = 0 ∧ (off.toNat - 0x40) / 4 < 23 then
    some ⟨(off.toNat - 0x40) / 4, h.2.2⟩
  else none

/-- The register at an offset; none at a reserved word (10_state.md R22, 20_memory.md R51). -/
def regAt (off : Offset) : Option Reg :=
  if off = 0x00#8 then some .ctrl
  else if off = 0x04#8 then some .inp
  else if off = 0x08#8 then some .cmd
  else if off = 0x0C#8 then some .status
  else if off = 0x10#8 then some .check
  else if off = 0x14#8 then some .bytes
  else if off = 0x18#8 then some .parity
  else if off = 0x1C#8 then some .msg
  else if off = 0x20#8 then some .runcnt
  else if off = 0x24#8 then some .serstat
  else (durIndexAt off).map .dur

/-- CTRL as a write of `v` leaves it: bits 3:0 of `v`, the rest dropped (20_memory.md R53). -/
def ctrlOfWord (v : Word) : Ctrl where
  strict := v[0]
  ieEdone := v[1]
  ieSdone := v[2]
  ieErr := v[3]

/-- IN as a write of `v` leaves it: bits 11:0 of `v`, the rest dropped (20_memory.md R53, 10_state.md R24). -/
def tripleOfWord (v : Word) : Triple where
  ch := v.extractLsb' 0 4
  orange := v.extractLsb' 4 4
  yellow := v.extractLsb' 8 4

/-- The channel members with their names, in declaration order (30_encoding.md R72). -/
def channelCodes : List (String × Nibble) :=
  [("Ch1", 0x5), ("Ch2", 0x6), ("Ch3", 0x7), ("All", 0x4)]

/-- The members of the orange and of the yellow command, in declaration order (30_encoding.md R72). -/
def commandCodes : List (String × Nibble) :=
  [("Nop", 0x0), ("Fwd", 0x7), ("Rev", 0xF), ("Stp", 0x8)]

/-- `c` is a member of the channel set. -/
def isChannelCode (c : Nibble) : Bool := (channelCodes.map Prod.snd).contains c

/-- `c` is a member of the orange and yellow command set. -/
def isCommandCode (c : Nibble) : Bool := (commandCodes.map Prod.snd).contains c

/-- Every input of the triple is a member (30_encoding.md R72, R73). -/
def isMemberTriple (t : Triple) : Bool :=
  isChannelCode t.ch && isCommandCode t.orange && isCommandCode t.yellow

end Sys2Proof.Machine
end

