-- ==== Sys2Proof/Machine/Flags.lean ====
section
/-! DEFINITION. The flags an ENCODE computes (40_encode_datapath.md R100, 42_commands.md R152), the outputs computed from
the stored bits (10_state.md R21, 60_exceptions.md R176), and the error codes (R170). -/

namespace Sys2Proof.Machine

/-- The command errors (60_exceptions.md R170). -/
inductive ErrKind where
  /-- ILLEGAL_CMD, raised by a CMD word that decodes to no command -/
  | illegalCmd
  /-- BUSY, raised by ENCODE, SEND and CLEAR while the serializer is busy -/
  | busy
  /-- NOT_VALID, raised by SEND when no result is held -/
  | notValid
  /-- INVALID_CODE, raised by ENCODE of a non-member when CTRL.STRICT = 1 -/
  | invalidCode
  deriving DecidableEq, Repr

/-- The code STATUS.ERRCODE takes (60_exceptions.md R170). -/
def errCodeOf : ErrKind → BitVec 4
  | .illegalCmd => 1
  | .busy => 2
  | .notValid => 3
  | .invalidCode => 4

/-- CKOVF of an ENCODE: the masked sum is 0 (40_encode_datapath.md R100). -/
def checkOverflows (t : Triple) : Bool := maskedSum t.ch t.orange t.yellow == 0#4

/-- INVCODE of an ENCODE: some input is not a member (42_commands.md R152). -/
def hasNonMember (t : Triple) : Bool := !isMemberTriple t

/-- The `irq` output (60_exceptions.md R176). -/
def irq (s : State) : Bool :=
  (s.status.edone && s.ctrl.ieEdone) || (s.status.sdone && s.ctrl.ieSdone) || (s.status.err && s.ctrl.ieErr)

/-- The `ir_mark` output is SERSTAT.LEVEL (10_state.md R21). -/
def irMark (s : State) : Bool := s.ser.level

end Sys2Proof.Machine
end

