-- ==== Sys2Proof/Machine/Ops.lean ====
section
/-! DEFINITION. The shared operations over the registers: the 32-bit word a read of each register returns (10_state.md
R22 to R33), the writes of CTRL, IN and STATUS (20_memory.md R53), taking a command error and acknowledging one
(60_exceptions.md R172, R177), the storing and clearing of the results (42_commands.md R152, R155), and the bus
response lines (20_memory.md R55). -/

namespace Sys2Proof.Machine

/-! ### What a read returns -/

/-- One bit as a 1-bit value. -/
def bit (b : Bool) : BitVec 1 := BitVec.ofBool b

/-- CTRL as read; bits 31:4 are 0 (10_state.md R23). -/
def ctrlWord (c : Ctrl) : Word :=
  0#28 ++ bit c.ieErr ++ bit c.ieSdone ++ bit c.ieEdone ++ bit c.strict

/-- IN as read; bits 31:12 are 0 (10_state.md R24). -/
def inWord (t : Triple) : Word := 0#20 ++ t.yellow ++ t.orange ++ t.ch

/-- STATUS as read; bits 31:12 and bit 7 are 0 (10_state.md R26). -/
def statusWord (t : Status) : Word :=
  0#20 ++ t.errcode ++ 0#1 ++ bit t.invcode ++ bit t.ckovf ++ bit t.err ++ bit t.sdone ++ bit t.edone ++
    bit t.sbusy ++ bit t.valid

/-- CHECK as read (10_state.md R28). -/
def checkWord (r : Results) : Word := 0#20 ++ r.sum4 ++ 0#3 ++ r.check

/-- BYTES as read (10_state.md R29). -/
def bytesWord (r : Results) : Word := r.rev2 ++ r.rev1 ++ r.byte2 ++ r.byte1

/-- PARITY as read (10_state.md R30). -/
def parityWord (r : Results) : Word := 0#30 ++ bit r.p2 ++ bit r.p1

/-- MSG as read (10_state.md R27). -/
def msgWord (r : Results) : Word := 0#9 ++ r.msg

/-- RUNCNT as read (10_state.md R31). -/
def runcntWord (r : Results) : Word := 0#27 ++ r.runcnt

/-- SERSTAT as read (10_state.md R32). -/
def serstatWord (p : SerStat) : Word := p.rem ++ 0#7 ++ bit p.level ++ 0#3 ++ p.idx

/-- DUR[i] as read (10_state.md R33). -/
def durWord (r : Results) (i : Fin 23) : Word := 0#16 ++ r.dur[i.val]

/-- The value a read of a register returns; CMD reads 0 (20_memory.md R52, 10_state.md R25). -/
def regWord (s : State) : Reg → Word
  | .ctrl => ctrlWord s.ctrl
  | .inp => inWord s.inp
  | .cmd => 0#32
  | .status => statusWord s.status
  | .check => checkWord s.res
  | .bytes => bytesWord s.res
  | .parity => parityWord s.res
  | .msg => msgWord s.res
  | .runcnt => runcntWord s.res
  | .serstat => serstatWord s.ser
  | .dur i => durWord s.res i

/-- The value a 32-bit aligned read at an offset returns; a reserved word reads 0 (20_memory.md R52). -/
def readWindow (s : State) (off : Offset) : Word :=
  match regAt off with
  | some r => regWord s r
  | none => 0#32

/-! ### Writes of CTRL, IN and STATUS -/

/-- CTRL[3:0] <- v[3:0] (20_memory.md R53). -/
def writeCtrl (v : Word) (s : State) : State := { s with ctrl := ctrlOfWord v }

/-- IN[11:0] <- v[11:0] (20_memory.md R53). -/
def writeIn (v : Word) (s : State) : State := { s with inp := tripleOfWord v }

/-- The host's acknowledgement, a write of `v` to STATUS: 1 clears EDONE (bit 2), SDONE (bit 3), and ERR with ERRCODE
(bit 4); nothing else acts (20_memory.md R53, 60_exceptions.md R177). -/
def acknowledge (v : Word) (s : State) : State :=
  { s with status := { s.status with
      edone := s.status.edone && !v[2]
      sdone := s.status.sdone && !v[3]
      err := s.status.err && !v[4]
      errcode := if v[4] then 0#4 else s.status.errcode } }

/-! ### Taking a command error -/

/-- `raise Error(code)`: ERR and ERRCODE are written and nothing else changes (60_exceptions.md R172). -/
def raiseError (e : ErrKind) (s : State) : State :=
  { s with status := { s.status with err := true, errcode := errCodeOf e } }

/-! ### The result registers -/

/-- A completed ENCODE's writes (42_commands.md R152). -/
def storeResults (r : Results) (ckovf inv : Bool) (s : State) : State :=
  { s with
    res := r
    status := { s.status with valid := true, edone := true, ckovf := ckovf, invcode := inv } }

/-- CLEAR's writes (42_commands.md R155). -/
def clearResults (s : State) : State :=
  { s with
    res := Results.zero
    status := { s.status with valid := false, ckovf := false, invcode := false } }

/-! ### The bus response lines -/

/-- The access completes with these values on `bus_err` and `bus_rdata` (20_memory.md R52, R55). -/
def respond (err : Bool) (rdata : Word) (s : State) : State := { s with busErr := err, busRdata := rdata }

/-- A completed write: `bus_err = 0`; the spec states no `bus_rdata`, so it is a free value (log 4). -/
def respondWrite (s : State) : State :=
  { s with busErr := false, busRdata := Config.freeBusRdata s.freeCount, freeCount := s.freeCount + 1 }

/-- A cycle with no access: the spec states neither response line, so both are free values (log 5). -/
def respondNone (s : State) : State :=
  { s with
    busErr := Config.freeBusErr s.freeCount
    busRdata := Config.freeBusRdata s.freeCount
    freeCount := s.freeCount + 1 }

end Sys2Proof.Machine
end

