-- ==== Sys2Proof/Machine/Encode.lean ====
section
/-! DEFINITION. The commands on the result registers: ENCODE, CLEAR, and NOP (42_commands.md R151, R152, R155). -/

namespace Sys2Proof.Machine

/-- NOP has no effect, busy or not (42_commands.md R151). -/
def execNop (s : State) : Host.Outcome State Fault Refusal := .next s

/-- ENCODE: BUSY before INVALID_CODE (60_exceptions.md R174), else the frame encoder on a snapshot of IN
(42_commands.md R152). -/
def execEncode (s : State) : Host.Outcome State Fault Refusal :=
  if s.status.sbusy then .next (raiseError .busy s)
  else
    let inv := hasNonMember s.inp
    if s.ctrl.strict && inv then .next (raiseError .invalidCode s)
    else .next (storeResults (encodeTriple s.inp) (checkOverflows s.inp) inv s)

/-- CLEAR (42_commands.md R155). -/
def execClear (s : State) : Host.Outcome State Fault Refusal :=
  if s.status.sbusy then .next (raiseError .busy s) else .next (clearResults s)

end Sys2Proof.Machine
end

