-- ==== Sys2Proof/Machine/Serializer.lean ====
section
/-! DEFINITION. The serializer (41_serializer.md R130 to R138) and the two commands that drive it, SEND and ABORT
(42_commands.md R153, R154). -/

namespace Sys2Proof.Machine

/-- `start()` (41_serializer.md R131). -/
def startSerializer (s : State) : State :=
  { s with
    status := { s.status with sbusy := true }
    ser := { idx := 0#5, level := true, rem := s.res.dur[0] } }

/-- `stop()`; SDONE is not set (41_serializer.md R134). -/
def stopSerializer (s : State) : State :=
  { s with status := { s.status with sbusy := false }, ser := SerStat.zero }

/-- The last entry has ended (41_serializer.md R132). -/
def finishFrame (s : State) : State :=
  { s with status := { s.status with sbusy := false, sdone := true }, ser := SerStat.zero }

/-- One microsecond of the current entry has passed (41_serializer.md R132). -/
def countDown (rem : Micros) (s : State) : State := { s with ser := { s.ser with rem := rem } }

/-- The next entry becomes current (41_serializer.md R132). -/
def enterEntry (i : BitVec 5) (us : Micros) (s : State) : State :=
  { s with ser := { idx := i, level := !s.ser.level, rem := us } }

/-- `tick()`: the serializer step of one `us_tick` (41_serializer.md R130, R132). REM and the new IDX wrap at their
widths (log 9). An index of 23 or more has no table entry to read: the model stops there by name (log 8). -/
def tick (s : State) : Host.Outcome State Fault Refusal :=
  if !s.status.sbusy then .next s
  else
    let rem := s.ser.rem - 1#16
    if rem ≠ 0#16 then .next (countDown rem s)
    else if s.ser.idx.toNat + 1 = s.res.runcnt.toNat then .next (finishFrame s)
    else
      let i := s.ser.idx + 1#5
      match s.res.dur[i.toNat]? with
      | some us => .next (enterEntry i us s)
      | none => .fault .serializerIndexOutsideTable

/-- SEND (42_commands.md R153). -/
def execSend (s : State) : Host.Outcome State Fault Refusal :=
  if s.status.sbusy then .next (raiseError .busy s)
  else if !s.status.valid then .next (raiseError .notValid s)
  else .next (startSerializer s)

/-- ABORT; while idle it has no effect (42_commands.md R154). -/
def execAbort (s : State) : Host.Outcome State Fault Refusal :=
  if s.status.sbusy then .next (stopSerializer s) else .next s

end Sys2Proof.Machine
end

