-- ==== Sys2Proof/Machine/Bus.lean ====
section
/-! DEFINITION. The register bus (20_memory.md R50 to R55), a command word's run (42_commands.md R150, R156), and one
whole clock cycle: reset, then the host access, then the serializer tick (70_reset_and_hazards.md R190, R198). -/

namespace Sys2Proof.Machine

/-- The platform address of an offset: the window stands at BASE_ADDR (20_memory.md R50; log 12). -/
def platformAddress (off : Offset) : Nat := Config.baseAddr + off.toNat

/-- The word written to CMD is decoded and its command run; any other word is ILLEGAL_CMD, before every other check
(42_commands.md R150, R156, 60_exceptions.md R174). -/
def runCommandWord (w : Word) (s : State) : Host.Outcome State Fault Refusal :=
  match decodeWord w with
  | .ok i => exec i s
  | .error _ => .next (raiseError .illegalCmd s)

/-- The effect of a 32-bit aligned write on the register at an offset; RO registers and reserved words ignore it
(20_memory.md R53). -/
def writeWindow (off : Offset) (v : Word) (s : State) : Host.Outcome State Fault Refusal :=
  match regAt off with
  | some .ctrl => .next (writeCtrl v s)
  | some .inp => .next (writeIn v s)
  | some .cmd => runCommandWord v s
  | some .status => .next (acknowledge v s)
  | some .check => .next s
  | some .bytes => .next s
  | some .parity => .next s
  | some .msg => .next s
  | some .runcnt => .next s
  | some .serstat => .next s
  | some (.dur _) => .next s
  | none => .next s

/-- `BusRead(off)` (20_memory.md R52); an undefined access is a bus error (R54, R55). -/
def busRead (size : BitVec 2) (off : Offset) (s : State) : State :=
  if accessIsDefined size off then respond false (readWindow s off) s else respond true 0#32 s

/-- `BusWrite(off, v)` (20_memory.md R53); an undefined access is a bus error (R54, R55). -/
def busWrite (size : BitVec 2) (off : Offset) (v : Word) (s : State) : Host.Outcome State Fault Refusal :=
  if accessIsDefined size off then
    match writeWindow off v s with
    | .next s' => .next (respondWrite s')
    | .fault f => .fault f
    | .refused r => .refused r
  else .next (respond true 0#32 s)

/-- The host's part of a cycle: at most one access (20_memory.md R60). -/
def hostAccess (p : Pins) (s : State) : Host.Outcome State Fault Refusal :=
  if !p.busSel then .next (respondNone s)
  else if p.busWe then busWrite p.busSize p.busAddr p.busWdata s
  else .next (busRead p.busSize p.busAddr s)

/-- A reset cycle: every register, field and output takes its reset value; the pins of the cycles still to come, and the
count of free values, are the model's own and stay (70_reset_and_hazards.md R190; log 11). -/
def resetCycle (s : State) : State :=
  { State.reset with inputs := s.inputs, freeCount := s.freeCount }

/-- One rising edge of `clk` with the pins `p`: reset wins; otherwise the host access is performed first and the tick
second (70_reset_and_hazards.md R190, R198). -/
def cycle (p : Pins) (s : State) : Host.Outcome State Fault Refusal :=
  if !p.rstN then .next (resetCycle s)
  else
    match hostAccess p s with
    | .next s' => if p.usTick then tick s' else .next s'
    | .fault f => .fault f
    | .refused r => .refused r

/-- The cycles of a schedule, in order, up to the first stop (20_memory.md R60). -/
def runCycles : List Pins → State → Host.Outcome State Fault Refusal
  | [], s => .next s
  | p :: ps, s =>
    match cycle p s with
    | .next s' => runCycles ps s'
    | .fault f => .fault f
    | .refused r => .refused r

/-- The pins of a cycle in which nothing happens. -/
def idlePins : Pins where
  rstN := true
  busSel := false
  busWe := false
  busAddr := 0#8
  busSize := 0#2
  busWdata := 0#32
  usTick := false

/-- The pins of a cycle with one `us_tick` and no access. -/
def tickPins : Pins := { idlePins with usTick := true }

/-- The pins of a cycle with `rst_n` low. -/
def resetPins : Pins := { idlePins with rstN := false }

/-- The pins of a cycle with a 32-bit write of `v` at `off`. -/
def writePins (off : Offset) (v : Word) : Pins :=
  { idlePins with busSel := true, busWe := true, busAddr := off, busSize := 2#2, busWdata := v }

/-- The pins of a cycle with a 32-bit read at `off`. -/
def readPins (off : Offset) : Pins :=
  { idlePins with busSel := true, busAddr := off, busSize := 2#2 }

end Sys2Proof.Machine
end

