-- ==== Sys2Proof/Machine/Step.lean ====
section
/-! DEFINITION. The step: one rising edge of `clk` with the next pins of the schedule, an idle cycle when it is empty
(logs 1 and 2). -/

namespace Sys2Proof.Machine

/-- One clock cycle. -/
def step (s : State) : Host.Outcome State Fault Refusal :=
  match s.inputs with
  | [] => cycle idlePins s
  | p :: rest => cycle p { s with inputs := rest }

/-- The host writes the command word `w` to CMD in the very next cycle (20_memory.md R63; log 3). -/
def State.withFetchWord (s : State) (nbits w : Nat) : State :=
  { s with inputs := writePins 0x08#8 (BitVec.ofNat 32 (w % 2 ^ nbits)) :: s.inputs }

end Sys2Proof.Machine
end

