-- ==== Sys2Proof/Machine/Transactions.lean ====
section
/-! DEFINITION. The host's transactions WR, RD, TICK and POLL and the pseudo-instructions, as runs of clock cycles
(30_encoding.md R80). -/

namespace Sys2Proof.Machine

/-- A host transaction (30_encoding.md R80). -/
inductive HostOp where
  | wr (off : Offset) (v : Word)
  | rd (off : Offset)
  | tick (n : Nat)
  | poll (off : Offset) (mask value : Word)
  deriving DecidableEq, Repr

/-- A pseudo-instruction (30_encoding.md R80). -/
inductive Pseudo where
  | setin (ch orange yellow : Nibble)
  | encode
  | send
  | abort
  | clear
  | nop
  | ackall
  | waitsend
  deriving DecidableEq, Repr

/-- The expansions of 30_encoding.md R80. -/
def expandPseudo : Pseudo → HostOp
  | .setin c o y => .wr 0x04 ((y.setWidth 32 <<< 8) ||| (o.setWidth 32 <<< 4) ||| c.setWidth 32)
  | .encode => .wr 0x08 0x00000001
  | .send => .wr 0x08 0x00000002
  | .abort => .wr 0x08 0x00000003
  | .clear => .wr 0x08 0x00000004
  | .nop => .wr 0x08 0x00000000
  | .ackall => .wr 0x0C 0x0000001C
  | .waitsend => .poll 0x0C 0x00000002 0x00000000

/-- `TICK n`: n `us_tick` pulses with no host access in between. -/
def runTicks (n : Nat) (s : State) : Host.Outcome State Fault Refusal := runCycles (List.replicate n tickPins) s

/-- `POLL off, mask, value`: repeat `RD off` until (read & mask) = value. R80 does not say how many ticks pass between
two reads: `gaps` says it, read by read (log 17). `none`: the gaps ended and the host still waits
(70_reset_and_hazards.md R200). -/
def runPoll (off : Offset) (mask value : Word) : List Nat → State → Option (Host.Outcome State Fault Refusal)
  | [], _ => none
  | gap :: gaps, s =>
    match cycle (readPins off) s with
    | .next s' =>
      if s'.busRdata &&& mask = value then some (.next s')
      else
        match runTicks gap s' with
        | .next s'' => runPoll off mask value gaps s''
        | .fault f => some (.fault f)
        | .refused r => some (.refused r)
    | .fault f => some (.fault f)
    | .refused r => some (.refused r)

/-- One transaction; `gaps` is read by POLL only. -/
def runOp (gaps : List Nat) (op : HostOp) (s : State) : Option (Host.Outcome State Fault Refusal) :=
  match op with
  | .wr off v => some (cycle (writePins off v) s)
  | .rd off => some (cycle (readPins off) s)
  | .tick n => some (runTicks n s)
  | .poll off mask value => runPoll off mask value gaps s

end Sys2Proof.Machine
end

