-- ==== Sys2Proof/Safety.lean ====
section
/-! DEFINITION. What holds of IRFE in every state a run from reset reaches, and the terms the statements use about
cycles, messages and durations. -/

namespace Sys2Proof.Machine

/-- The result registers hold one consistent set: all 0 while VALID = 0, and otherwise what one ENCODE of one triple
wrote (10_state.md R35). -/
def resultsOk (s : State) : Prop :=
  if s.status.valid then
    ∃ t : Triple, s.res = encodeTriple t ∧ s.status.ckovf = checkOverflows t ∧ s.status.invcode = hasNonMember t
  else s.res = Results.zero ∧ s.status.ckovf = false ∧ s.status.invcode = false

/-- SERSTAT is 0 while idle (10_state.md R32). While busy a result is held (42_commands.md R153), the index is below the
run count, REM is from 1 to the entry's duration (41_serializer.md R132), and entries of even index are marks (R133). -/
def serializerOk (s : State) : Prop :=
  if s.status.sbusy then
    s.status.valid = true ∧ s.ser.idx.toNat < s.res.runcnt.toNat ∧ 1 ≤ s.ser.rem.toNat ∧
      s.ser.rem.toNat ≤ (s.res.dur.toList.getD s.ser.idx.toNat 0).toNat ∧
      s.ser.level = decide (s.ser.idx.toNat % 2 = 0)
  else s.ser = SerStat.zero

/-- ERRCODE is 0 while ERR = 0 and one of the codes 1 to 4 while ERR = 1 (60_exceptions.md R170). -/
def errorOk (s : State) : Prop :=
  if s.status.err then 1 ≤ s.status.errcode.toNat ∧ s.status.errcode.toNat ≤ 4 else s.status.errcode = 0#4

/-- The machine's invariant. -/
structure Inv (s : State) : Prop where
  results    : resultsOk s
  serializer : serializerOk s
  error      : errorOk s

/-- The pins carry a 32-bit write of `v` at the offset `off`, out of reset. -/
def Writes (p : Pins) (off : Offset) (v : Word) : Prop :=
  p.rstN = true ∧ p.busSel = true ∧ p.busWe = true ∧ p.busSize = 2#2 ∧ p.busAddr = off ∧ p.busWdata = v

/-- The pins carry a read out of reset, of any width, at any offset. -/
def Reads (p : Pins) : Prop := p.rstN = true ∧ p.busSel = true ∧ p.busWe = false

/-- The cycle neither resets IRFE nor writes ABORT to CMD. -/
def LeavesSendRunning (p : Pins) : Prop := p.rstN = true ∧ ¬ Writes p 0x08#8 0x00000003#32

/-- The ticks of a schedule. -/
def tickCount (ps : List Pins) : Nat := (ps.filter fun p => p.usTick).length

/-- Bit k of the message held in MSG: m(k) = MSG[22 - k] (10_state.md R27). -/
def msgBit (r : Results) (k : Nat) : Bool := r.msg.getLsbD (22 - k)

/-- The durations of the runs, DUR[0..n-1], in microseconds. -/
def heldDurations (r : Results) : List Nat := (r.dur.toList.take r.runcnt.toNat).map fun d => d.toNat

/-- The bits that durations stand for: entry i is a run of `0`s for even i and of `1`s for odd i, 208 microseconds a bit
(40_encode_datapath.md R113, R116). -/
def bitsOfDurations (bit : Bool) : List Nat → List Bool
  | [] => []
  | d :: ds => List.replicate (d / 208) bit ++ bitsOfDurations (!bit) ds

/-- The number of set bits of a byte. -/
def popcount (b : Byte) : Nat := ((List.range 8).filter fun i => b.getLsbD i).length

/-- The bits of the register at an offset that are not reserved (10_state.md R22 to R33). -/
def implementedBits (off : Offset) : Word :=
  if off = 0x00#8 then 0x0000000F#32
  else if off = 0x04#8 then 0x00000FFF#32
  else if off = 0x0C#8 then 0x00000F7F#32
  else if off = 0x10#8 then 0x00000F1F#32
  else if off = 0x14#8 then 0xFFFFFFFF#32
  else if off = 0x18#8 then 0x00000003#32
  else if off = 0x1C#8 then 0x007FFFFF#32
  else if off = 0x20#8 then 0x0000001F#32
  else if off = 0x24#8 then 0xFFFF011F#32
  else if 0x40 ≤ off.toNat ∧ off.toNat ≤ 0x98 ∧ off.toNat % 4 = 0 then 0x0000FFFF#32
  else 0x00000000#32

/-- The offset is that of a result register: CHECK, BYTES, PARITY, MSG, RUNCNT or a DUR entry (10_state.md R22). -/
def isResultOffset (off : Offset) : Prop :=
  (0x10 ≤ off.toNat ∧ off.toNat ≤ 0x20) ∨ (0x40 ≤ off.toNat ∧ off.toNat ≤ 0x98)

/-- The triple's inputs are all members of the enumerated sets (30_encoding.md R72). -/
abbrev IsMember (t : Triple) : Prop :=
  t.ch ∈ [0x4#4, 0x5#4, 0x6#4, 0x7#4] ∧ t.orange ∈ [0x0#4, 0x7#4, 0x8#4, 0xF#4] ∧
    t.yellow ∈ [0x0#4, 0x7#4, 0x8#4, 0xF#4]

/-- The state with a command error recorded: ERR = 1 and ERRCODE = `code`, nothing else changed (60_exceptions.md R172). -/
def withError (code : BitVec 4) (s : State) : State :=
  { s with status := { s.status with err := true, errcode := code } }

/-- The error a CMD word reports, the first that applies in the order of 60_exceptions.md R174, by its code (R170). -/
def firstError (w : Word) (s : State) : Option (BitVec 4) :=
  if 4 < w.toNat then some 1#4
  else if s.status.sbusy = true ∧ (w = 1#32 ∨ w = 2#32 ∨ w = 4#32) then some 2#4
  else if s.status.valid = false ∧ w = 2#32 then some 3#4
  else if s.ctrl.strict = true ∧ ¬ IsMember s.inp ∧ w = 1#32 then some 4#4
  else none

/-- The outcome is the state `t` with a write's response: `bus_err = 0`, and some value on `bus_rdata`, for which the
model takes a free value (log 4). -/
def CompletesWrite (o : Host.Outcome State Fault Refusal) (t : State) : Prop :=
  ∃ (d : Word) (n : Nat), o = .next { t with busErr := false, busRdata := d, freeCount := n }

/-- Two states whose registers and flags agree but for ERR and ERRCODE. -/
def AgreeButError (s t : State) : Prop :=
  t = { s with status := { s.status with err := t.status.err, errcode := t.status.errcode } }

end Sys2Proof.Machine
end

