-- ==== Sys2Proof/Certificates/Slice0/Obligations.lean ====
section
/-! DEFINITION. The statements about the model, for the provers. -/

open Sys2Proof Sys2Proof.Machine

/-! ### Reset and the register window -/

/-- 10_state.md R36: every register, field and output is 0 in the reset state. -/
def Obligations.ResetLeavesEverythingZero : Prop :=
  (∀ off : Offset, readWindow State.reset off = 0#32) ∧
    State.reset.ctrl = ⟨false, false, false, false⟩ ∧ State.reset.inp = ⟨0#4, 0#4, 0#4⟩ ∧
    State.reset.status = ⟨false, false, false, false, false, false, false, 0#4⟩ ∧
    State.reset.res = ⟨0#5, 0#4, 0#8, 0#8, 0#8, 0#8, false, false, 0#23, 0#5, Vector.replicate 23 0#16⟩ ∧
    State.reset.ser = ⟨0#5, false, 0#16⟩ ∧
    irMark State.reset = false ∧ irq State.reset = false ∧
    State.reset.busErr = false ∧ State.reset.busRdata = 0#32

/-- 70_reset_and_hazards.md R190: whatever the state, the access and the tick, a cycle with `rst_n` low leaves every
register and output at its reset value. The schedule and the count of free values are no part of IRFE: they are the
model's own, and the equation leaves them out (log 11). -/
def Obligations.ResetCycleWinsFromAnyState : Prop :=
  ∀ (p : Pins) (s : State), p.rstN = false →
    ∃ t, cycle p s = .next t ∧ (∀ off : Offset, readWindow t off = 0#32) ∧
      irMark t = false ∧ irq t = false ∧ t.busErr = false ∧ t.busRdata = 0#32 ∧
      { t with inputs := [], freeCount := 0 } = State.reset

/-- 10_state.md R22: the register at each offset, and none at the reserved words. -/
def Obligations.RegisterMapFollowsTheTable : Prop :=
  regAt 0x00#8 = some .ctrl ∧ regAt 0x04#8 = some .inp ∧ regAt 0x08#8 = some .cmd ∧ regAt 0x0C#8 = some .status ∧
    regAt 0x10#8 = some .check ∧ regAt 0x14#8 = some .bytes ∧ regAt 0x18#8 = some .parity ∧
    regAt 0x1C#8 = some .msg ∧ regAt 0x20#8 = some .runcnt ∧ regAt 0x24#8 = some .serstat ∧
    (∀ i : Fin 23, regAt (BitVec.ofNat 8 (0x40 + 4 * i.val)) = some (.dur i)) ∧
    (∀ off : Offset, (0x28 ≤ off.toNat ∧ off.toNat ≤ 0x3C) ∨ 0x9C ≤ off.toNat → regAt off = none)

/-- 10_state.md R23 to R33: where each field stands in the word a read returns. -/
def Obligations.RegisterFieldsStandAtTheirBits : Prop :=
  ∀ s : State,
    ((readWindow s 0x00#8).getLsbD 0 = s.ctrl.strict ∧ (readWindow s 0x00#8).getLsbD 1 = s.ctrl.ieEdone ∧
      (readWindow s 0x00#8).getLsbD 2 = s.ctrl.ieSdone ∧ (readWindow s 0x00#8).getLsbD 3 = s.ctrl.ieErr) ∧
    ((readWindow s 0x04#8).extractLsb' 0 4 = s.inp.ch ∧ (readWindow s 0x04#8).extractLsb' 4 4 = s.inp.orange ∧
      (readWindow s 0x04#8).extractLsb' 8 4 = s.inp.yellow) ∧
    ((readWindow s 0x0C#8).getLsbD 0 = s.status.valid ∧ (readWindow s 0x0C#8).getLsbD 1 = s.status.sbusy ∧
      (readWindow s 0x0C#8).getLsbD 2 = s.status.edone ∧ (readWindow s 0x0C#8).getLsbD 3 = s.status.sdone ∧
      (readWindow s 0x0C#8).getLsbD 4 = s.status.err ∧ (readWindow s 0x0C#8).getLsbD 5 = s.status.ckovf ∧
      (readWindow s 0x0C#8).getLsbD 6 = s.status.invcode ∧
      (readWindow s 0x0C#8).extractLsb' 8 4 = s.status.errcode) ∧
    ((readWindow s 0x10#8).extractLsb' 0 5 = s.res.check ∧ (readWindow s 0x10#8).extractLsb' 8 4 = s.res.sum4) ∧
    ((readWindow s 0x14#8).extractLsb' 0 8 = s.res.byte1 ∧ (readWindow s 0x14#8).extractLsb' 8 8 = s.res.byte2 ∧
      (readWindow s 0x14#8).extractLsb' 16 8 = s.res.rev1 ∧ (readWindow s 0x14#8).extractLsb' 24 8 = s.res.rev2) ∧
    ((readWindow s 0x18#8).getLsbD 0 = s.res.p1 ∧ (readWindow s 0x18#8).getLsbD 1 = s.res.p2) ∧
    (readWindow s 0x1C#8).extractLsb' 0 23 = s.res.msg ∧
    (readWindow s 0x20#8).extractLsb' 0 5 = s.res.runcnt ∧
    ((readWindow s 0x24#8).extractLsb' 0 5 = s.ser.idx ∧ (readWindow s 0x24#8).getLsbD 8 = s.ser.level ∧
      (readWindow s 0x24#8).extractLsb' 16 16 = s.ser.rem) ∧
    (∀ i : Fin 23, (readWindow s (BitVec.ofNat 8 (0x40 + 4 * i.val))).extractLsb' 0 16 = s.res.dur[i.val])

/-- 20_memory.md R52: a read of 32 bits at a multiple of 4 answers the register's value with reserved bits 0, CMD read
as 0 and reserved words as 0; any other read is a bus error; no register changes. The tick of a shared cycle is
`HostAccessComesBeforeTheTick`. -/
def Obligations.ReadAnswersTheRegister : Prop :=
  ∀ (p : Pins) (s : State), Reads p → p.usTick = false →
    (p.busSize ≠ 2#2 ∨ p.busAddr.toNat % 4 ≠ 0 →
      cycle p s = .next { s with busErr := true, busRdata := 0#32 }) ∧
    (p.busSize = 2#2 ∧ p.busAddr.toNat % 4 = 0 →
      cycle p s = .next { s with busErr := false, busRdata := readWindow s p.busAddr }) ∧
    (∀ (off : Offset) (r : Reg), regAt off = some r → readWindow s off = regWord s r) ∧
    (∀ off : Offset, regAt off = none → readWindow s off = 0#32) ∧
    readWindow s 0x08#8 = 0#32 ∧
    (∀ off : Offset, readWindow s off &&& ~~~ implementedBits off = 0#32)

/-- 20_memory.md R54, R55: an access of another width or at another offset changes no register, read or write. -/
def Obligations.UndefinedAccessIsABusError : Prop :=
  ∀ (p : Pins) (s : State), p.rstN = true → p.busSel = true → p.usTick = false →
    (p.busSize ≠ 2#2 ∨ p.busAddr.toNat % 4 ≠ 0) →
    cycle p s = .next { s with busErr := true, busRdata := 0#32 }

/-- 20_memory.md R53 on CTRL and IN, 10_state.md R23, R24, 70_reset_and_hazards.md R196: what is read back, and that
every other register, the results among them, reads as before. `bus_rdata` is a free value (log 4). -/
def Obligations.CtrlAndInWritesReadBack : Prop :=
  ∀ (p : Pins) (s : State) (v : Word), p.usTick = false →
    (Writes p 0x00#8 v → ∃ t, CompletesWrite (cycle p s) t ∧ readWindow t 0x00#8 = v &&& 0x0000000F#32 ∧
      (∀ off : Offset, off ≠ 0x00#8 → readWindow t off = readWindow s off) ∧ irMark t = irMark s) ∧
    (Writes p 0x04#8 v → ∃ t, CompletesWrite (cycle p s) t ∧ readWindow t 0x04#8 = v &&& 0x00000FFF#32 ∧
      (∀ off : Offset, off ≠ 0x04#8 → readWindow t off = readWindow s off) ∧ irMark t = irMark s ∧ irq t = irq s)

/-- 20_memory.md R53 on STATUS, 60_exceptions.md R177: a written 1 clears EDONE, SDONE, or ERR and with it ERRCODE; no
other bit acts. -/
def Obligations.StatusWriteClearsAcknowledgedEvents : Prop :=
  ∀ (p : Pins) (s : State) (v : Word), Writes p 0x0C#8 v → p.usTick = false →
    ∃ t, CompletesWrite (cycle p s) t ∧
      readWindow t 0x0C#8 =
        readWindow s 0x0C#8 &&& ~~~ ((v &&& 0x0000001C#32) ||| if v.getLsbD 4 then 0x00000F00#32 else 0#32) ∧
      (∀ off : Offset, off ≠ 0x0C#8 → readWindow t off = readWindow s off) ∧ irMark t = irMark s

/-- 20_memory.md R53: a write to an RO register or a reserved word is ignored and is no bus error. -/
def Obligations.ReadOnlyAndReservedWritesAreIgnored : Prop :=
  ∀ (p : Pins) (s : State) (off : Offset) (v : Word), Writes p off v → p.usTick = false → off.toNat % 4 = 0 →
    off ≠ 0x00#8 → off ≠ 0x04#8 → off ≠ 0x08#8 → off ≠ 0x0C#8 → CompletesWrite (cycle p s) s

/-- 20_memory.md R59: a read, and a write to CTRL, IN or STATUS, does the same twice as once. -/
def Obligations.AccessesOtherThanCommandsAreIdempotent : Prop :=
  ∀ (p : Pins) (s t : State), p.usTick = false →
    (Reads p ∨ ∃ v, Writes p 0x00#8 v ∨ Writes p 0x04#8 v ∨ Writes p 0x0C#8 v) →
    cycle p s = .next t → ∃ (d : Word) (n : Nat), cycle p t = .next { t with busRdata := d, freeCount := n }

/-- 41_serializer.md R130, 60_exceptions.md R185: while the serializer is idle a cycle with no access changes no
register, with a tick or without. The response lines are free values (log 5). -/
def Obligations.IdleMachineWaitsForTheHost : Prop :=
  ∀ (p : Pins) (s : State), p.rstN = true → p.busSel = false → s.status.sbusy = false →
    ∃ (e : Bool) (d : Word) (n : Nat), cycle p s = .next { s with busErr := e, busRdata := d, freeCount := n }

/-! ### Decoding and running a command -/

/-- 30_encoding.md R75: the five words of the table, written out. -/
def Obligations.DecoderReadsTheTableWords : Prop :=
  decodeWord 0b00000000000000000000000000000000#32 = .ok .nop ∧
    decodeWord 0b00000000000000000000000000000001#32 = .ok .encode ∧
    decodeWord 0b00000000000000000000000000000010#32 = .ok .send ∧
    decodeWord 0b00000000000000000000000000000011#32 = .ok .abort ∧
    decodeWord 0b00000000000000000000000000000100#32 = .ok .clear

/-- 30_encoding.md R75, R76: over all 2^32 words, a word decodes to a command exactly when it is that command's word,
and every other word is rejected by its reason; over bytes, what follows a command comes back untouched. -/
def Obligations.DecodeAndEncodeAgree : Prop :=
  (∀ (w : Word) (i : Instr), decodeWord w = .ok i ↔ w = encode i) ∧
    (∀ w : Word, decodeWord w = .error .mbzNotZero ↔ 16 ≤ w.toNat) ∧
    (∀ w : Word, decodeWord w = .error .opNotAssigned ↔ 5 ≤ w.toNat ∧ w.toNat ≤ 15) ∧
    (∀ (i : Instr) (rest : List Byte), decodeBytes (encodeBytes i ++ rest) = .ok (i, rest)) ∧
    (∀ w : Word, wordOfLanes (wordLane w 0) (wordLane w 1) (wordLane w 2) (wordLane w 3) = w)

/-- 42_commands.md R150: when the next cycle's pins write a command's word to CMD, the step is that command's run at the
state, the write's response, and the tick if the cycle has one. -/
def Obligations.StepRunsTheDecodedCommand : Prop :=
  ∀ (s t : State) (p : Pins) (rest : List Pins) (w : Word) (i : Instr), s.inputs = p :: rest →
    Writes p 0x08#8 w → decodeWord w = .ok i → exec i { s with inputs := rest } = .next t →
    step s = if p.usTick then tick (respondWrite t) else .next (respondWrite t)

/-- 42_commands.md R156: any other word raises ILLEGAL_CMD, busy or not, and changes nothing else. -/
def Obligations.IllegalWordRaisesIllegalCmd : Prop :=
  ∀ (p : Pins) (s : State) (w : Word), Writes p 0x08#8 w → p.usTick = false → 5 ≤ w.toNat →
    CompletesWrite (cycle p s) (withError 1#4 s)

/-- 60_exceptions.md R172, R174: the first error that applies is the one reported; it changes ERR and ERRCODE alone, and
a command that reports none leaves both. -/
def Obligations.FirstApplicableErrorIsReported : Prop :=
  ∀ (w : Word) (s : State),
    (∀ code, firstError w s = some code → runCommandWord w s = .next (withError code s)) ∧
    (firstError w s = none →
      ∃ t, runCommandWord w s = .next t ∧ t.status.err = s.status.err ∧ t.status.errcode = s.status.errcode)

/-- 60_exceptions.md R173: what a command does is the same whatever ERR and ERRCODE hold. -/
def Obligations.HeldErrorDoesNotSteerCommands : Prop :=
  ∀ (i : Instr) (s s' : State), AgreeButError s s' →
    ∃ t t', exec i s = .next t ∧ exec i s' = .next t' ∧ AgreeButError t t'

/-! ### The commands -/

/-- 42_commands.md R151. -/
def Obligations.NopHasNoEffect : Prop :=
  ∀ s : State, exec .nop s = .next s

/-- 42_commands.md R152, with the membership and the overflow condition written out. -/
def Obligations.EncodeFollowsItsRule : Prop :=
  ∀ s : State,
    (s.status.sbusy = true → exec .encode s = .next (withError 2#4 s)) ∧
    (s.status.sbusy = false → s.ctrl.strict = true → ¬ IsMember s.inp →
      exec .encode s = .next (withError 4#4 s)) ∧
    (s.status.sbusy = false → (s.ctrl.strict = false ∨ IsMember s.inp) →
      exec .encode s = .next { s with
        res := encodeTriple s.inp
        status := { s.status with
          valid := true
          edone := true
          ckovf := decide ((s.inp.ch.toNat + s.inp.orange.toNat + s.inp.yellow.toNat) % 16 = 0)
          invcode := decide (¬ IsMember s.inp) } })

/-- 42_commands.md R153. The last clause is the corner case that BUSY and NOT_VALID never apply together. -/
def Obligations.SendFollowsItsRule : Prop :=
  ∀ s : State,
    (s.status.sbusy = true → exec .send s = .next (withError 2#4 s)) ∧
    (s.status.sbusy = false → s.status.valid = false → exec .send s = .next (withError 3#4 s)) ∧
    (s.status.sbusy = false → s.status.valid = true →
      exec .send s = .next { s with
        status := { s.status with sbusy := true }
        ser := { idx := 0#5, level := true, rem := s.res.dur[0] } }) ∧
    (Inv s → s.status.sbusy = true → s.status.valid = true)

/-- 42_commands.md R154. -/
def Obligations.AbortFollowsItsRule : Prop :=
  ∀ s : State,
    (s.status.sbusy = true →
      exec .abort s = .next { s with
        status := { s.status with sbusy := false }
        ser := { idx := 0#5, level := false, rem := 0#16 } }) ∧
    (s.status.sbusy = false → exec .abort s = .next s)

/-- 42_commands.md R155, with its corner case that CLEAR twice is the same as once. -/
def Obligations.ClearFollowsItsRule : Prop :=
  ∀ s : State,
    (s.status.sbusy = true → exec .clear s = .next (withError 2#4 s)) ∧
    (s.status.sbusy = false →
      ∃ t, exec .clear s = .next t ∧ exec .clear t = .next t ∧
        t = { s with
          res := ⟨0#5, 0#4, 0#8, 0#8, 0#8, 0#8, false, false, 0#23, 0#5, Vector.replicate 23 0#16⟩
          status := { s.status with valid := false, ckovf := false, invcode := false } })

/-- The frame of every command, error or not, register by register (42_commands.md R151 to R155, 60_exceptions.md R172).
IRFE has no memory: what a read of the window returns stands in its place. -/
def Obligations.CommandsLeaveTheRestUnchanged : Prop :=
  ∀ (i : Instr) (s t : State), exec i s = .next t →
    (t.ctrl = s.ctrl ∧ t.inp = s.inp ∧ t.status.sdone = s.status.sdone ∧ t.busErr = s.busErr ∧
      t.busRdata = s.busRdata ∧ t.inputs = s.inputs ∧ t.freeCount = s.freeCount) ∧
    (firstError (encode i) s = none → t.status.err = s.status.err ∧ t.status.errcode = s.status.errcode) ∧
    (i = .nop → t = s) ∧
    (i = .encode ∨ i = .clear →
      t.ser = s.ser ∧ t.status.sbusy = s.status.sbusy ∧
      ∀ off : Offset, off ≠ 0x0C#8 → ¬ isResultOffset off → readWindow t off = readWindow s off) ∧
    (i = .clear → t.status.edone = s.status.edone) ∧
    (i = .send ∨ i = .abort →
      t.res = s.res ∧ t.status.valid = s.status.valid ∧ t.status.edone = s.status.edone ∧
      t.status.ckovf = s.status.ckovf ∧ t.status.invcode = s.status.invcode ∧
      ∀ off : Offset, off ≠ 0x0C#8 → off ≠ 0x24#8 → readWindow t off = readWindow s off)

/-! ### The encode datapath -/

/-- 40_encode_datapath.md R100, R101. -/
def Obligations.CheckDigitSumsToZero : Prop :=
  (∀ t : Triple,
    let sum := t.ch.toNat + t.orange.toNat + t.yellow.toNat
    (encodeTriple t).sum4.toNat = sum % 16 ∧
      (encodeTriple t).check.toNat = 16 - sum % 16 ∧
      1 ≤ (encodeTriple t).check.toNat ∧
      checkOverflows t = decide (sum % 16 = 0) ∧
      (sum + (encodeTriple t).check.toNat) % 16 = 0) ∧
    ((List.range 4096).filter fun n =>
      maskedSum (BitVec.ofNat 4 n) (BitVec.ofNat 4 (n / 16)) (BitVec.ofNat 4 (n / 256)) = 0#4).length = 256

/-- 30_encoding.md R77, 40_encode_datapath.md R102, R103: the bytes, and the overflow of the check digit 16 into the
yellow nibble. -/
def Obligations.BytePairIsAssembled : Prop :=
  ∀ t : Triple,
    let r := encodeTriple t
    r.byte1.toNat = t.ch.toNat * 16 + t.orange.toNat ∧
      r.byte2.toNat = (t.yellow.toNat * 16 + r.check.toNat) % 256 ∧
      (r.check.toNat ≤ 15 → r.byte2.toNat = t.yellow.toNat * 16 + r.check.toNat) ∧
      (r.check.toNat = 16 → r.byte2.toNat = (t.yellow.toNat + 1) % 16 * 16 ∧
        (t.ch.toNat + t.orange.toNat + r.byte2.toNat / 16 + r.byte2.toNat % 16) % 16 = 1)

/-- 40_encode_datapath.md R104. -/
def Obligations.MembersNeverOverflow : Prop :=
  (∀ t : Triple, IsMember t →
    checkOverflows t = false ∧ (encodeTriple t).sum4 ≠ 0#4 ∧ 1 ≤ (encodeTriple t).check.toNat ∧
      (encodeTriple t).check.toNat ≤ 15 ∧
      (t.orange.toNat + t.yellow.toNat) % 16 ∈ [0, 6, 7, 8, 14, 15]) ∧
    (∀ k : Nat, (∃ t : Triple, IsMember t ∧ (encodeTriple t).check.toNat = k) ↔
      k ∈ [1, 2, 3, 4, 5, 6, 9, 10, 11, 12, 13, 14])

/-- 40_encode_datapath.md R105, R106. -/
def Obligations.BytesAreReversed : Prop :=
  (∀ b : Byte, (∀ i, i < 8 → (rev8 b).getLsbD i = b.getLsbD (7 - i)) ∧ rev8 (rev8 b) = b ∧
    popcount (rev8 b) = popcount b) ∧
    rev8 0x00#8 = 0x00#8 ∧ rev8 0xFF#8 = 0xFF#8 ∧ rev8 0x01#8 = 0x80#8 ∧ rev8 0x81#8 = 0x81#8 ∧
    rev8 0x3C#8 = 0x3C#8 ∧ rev8 0xA5#8 = 0xA5#8 ∧ rev8 0x18#8 = 0x18#8 ∧
    (∀ (t : Triple) (i : Nat), i < 8 →
      (encodeTriple t).rev1.getLsbD i = (encodeTriple t).byte1.getLsbD (7 - i) ∧
      (encodeTriple t).rev2.getLsbD i = (encodeTriple t).byte2.getLsbD (7 - i))

/-- 40_encode_datapath.md R107, R108: data and parity together have an odd number of set bits. -/
def Obligations.FramesHaveOddParity : Prop :=
  ∀ t : Triple,
    (popcount (encodeTriple t).rev1 + (encodeTriple t).p1.toNat) % 2 = 1 ∧
      (popcount (encodeTriple t).rev2 + (encodeTriple t).p2.toNat) % 2 = 1

/-- 30_encoding.md R78, R79, 20_memory.md R57, 10_state.md R27: every bit of the message by its position, data least
significant bit first. -/
def Obligations.MessageBitsStandAtTheirPositions : Prop :=
  ∀ t : Triple,
    let r := encodeTriple t
    msgBit r 0 = false ∧ (∀ j, j < 8 → msgBit r (1 + j) = r.byte1.getLsbD j) ∧ msgBit r 9 = r.p1 ∧
      msgBit r 10 = true ∧ msgBit r 11 = true ∧
      msgBit r 12 = false ∧ (∀ j, j < 8 → msgBit r (13 + j) = r.byte2.getLsbD j) ∧ msgBit r 21 = r.p2 ∧
      msgBit r 22 = true ∧
      (∀ k, k < 23 → (messageOf t.ch t.orange t.yellow)[k]? = some (msgBit r k))

/-- 40_encode_datapath.md R111, R113, R116: the durations lose nothing. Of any 23-bit message that begins with `0`, the
table's entries, the pause taken off the last, stand for the message bit by bit, and the entries past them are 0. -/
def Obligations.DurationsStandForTheMessage : Prop :=
  ∀ m : List Bool, m.length = 23 → m.head? = some false →
    let n := (runs m).length
    let ds := ((durationTable (runs m)).toList.take n).map fun d => d.toNat
    1 ≤ n ∧ n ≤ 23 ∧ (runCount (runs m)).toNat = n ∧
      bitsOfDurations false (ds.dropLast ++ [ds.getLastD 0 - 208]) = m ∧
      (∀ i : Fin 23, n ≤ i.val → (durationTable (runs m))[i.val] = 0#16)

/-- 40_encode_datapath.md R115. -/
def Obligations.DurationsSumToTheAirTime : Prop :=
  ∀ t : Triple, (heldDurations (encodeTriple t)).sum = 23 * 208 + 208

/-- 40_encode_datapath.md R114: the bounds over all 4096 triples, and where each is reached. -/
def Obligations.RunLengthBoundsHold : Prop :=
  (∀ t : Triple,
    let n := (encodeTriple t).runcnt.toNat
    let ls := runs (messageOf t.ch t.orange t.yellow)
    n % 2 = 0 ∧ 6 ≤ n ∧ n ≤ 20 ∧ (n = 20 ↔ t = ⟨0xB#4, 0x5#4, 0xB#4⟩) ∧
      (∀ d ∈ heldDurations (encodeTriple t), d % 208 = 0 ∧ 208 ≤ d ∧ d ≤ 2288) ∧
      (∀ l ∈ ls, l ≤ 11) ∧ ls.getLastD 0 ≤ 10 ∧
      (IsMember t → n ∈ [8, 10, 12, 14] ∧ ∀ l ∈ ls, l ≤ 8)) ∧
    (encodeTriple ⟨0x0#4, 0x0#4, 0x0#4⟩).runcnt = 6#5 ∧
    (∀ y : Nibble, 11 ∈ runs (messageOf 0xF#4 0xF#4 y)) ∧
    (∃ t : Triple, (runs (messageOf t.ch t.orange t.yellow)).getLastD 0 = 10) ∧
    (∃ t : Triple, IsMember t ∧ 8 ∈ runs (messageOf t.ch t.orange t.yellow)) ∧
    (∃ t : Triple, 2288 ∈ heldDurations (encodeTriple t))

/-- 40_encode_datapath.md R117, 70_reset_and_hazards.md R196: two ENCODEs of one triple store the same results, whatever
else the two states hold. -/
def Obligations.EncodeDependsOnTheTripleAlone : Prop :=
  ∀ s s' : State, s.inp = s'.inp → s.status.sbusy = false → s'.status.sbusy = false →
    (s.ctrl.strict = false ∨ IsMember s.inp) → (s'.ctrl.strict = false ∨ IsMember s'.inp) →
    ∃ t t', exec .encode s = .next t ∧ exec .encode s' = .next t' ∧ t.res = t'.res ∧
      t.status.ckovf = t'.status.ckovf ∧ t.status.invcode = t'.status.invcode

/-! ### The serializer -/

/-- 41_serializer.md R132: one tick, and its corner cases: REM is 0 only while idle, the index stays below 20, and an
entry stays current for exactly its duration. -/
def Obligations.TickFollowsItsRule : Prop :=
  (∀ s : State,
    (s.status.sbusy = false → tick s = .next s) ∧
    (s.status.sbusy = true → 2 ≤ s.ser.rem.toNat →
      tick s = .next { s with ser := { s.ser with rem := BitVec.ofNat 16 (s.ser.rem.toNat - 1) } }) ∧
    (s.status.sbusy = true → s.ser.rem = 1#16 → s.ser.idx.toNat + 1 = s.res.runcnt.toNat →
      tick s = .next { s with
        status := { s.status with sbusy := false, sdone := true }
        ser := { idx := 0#5, level := false, rem := 0#16 } }) ∧
    (∀ h : s.ser.idx.toNat + 1 < 23,
      s.status.sbusy = true → s.ser.rem = 1#16 → s.ser.idx.toNat + 1 ≠ s.res.runcnt.toNat →
      tick s = .next { s with
        ser := {
          idx := BitVec.ofNat 5 (s.ser.idx.toNat + 1)
          level := !s.ser.level
          rem := s.res.dur[s.ser.idx.toNat + 1]'h } }) ∧
    (Inv s → s.status.sbusy = true →
      1 ≤ s.ser.rem.toNat ∧ s.ser.idx.toNat + 1 ≤ s.res.runcnt.toNat ∧ s.res.runcnt.toNat ≤ 20)) ∧
    (∀ (s : State) (k : Nat), s.status.sbusy = true → k < s.ser.rem.toNat →
      ∃ (e : Bool) (d : Word) (n : Nat), runTicks k s = .next { s with
        ser := { s.ser with rem := BitVec.ofNat 16 (s.ser.rem.toNat - k) }
        busErr := e
        busRdata := d
        freeCount := n })

/-- Where the model stops, and nowhere else in a tick: the index would leave the 23 entries of 10_state.md R33. The stop is
the model's choice for states no run reaches (log 8); `NoScheduleStopsTheMachine` rules it out. -/
def Obligations.TickStopsOnlyOutsideTheTable : Prop :=
  ∀ (s : State) (f : Fault), tick s = .fault f ↔
    (f = .serializerIndexOutsideTable ∧ s.status.sbusy = true ∧ s.ser.rem = 1#16 ∧
      s.ser.idx.toNat + 1 ≠ s.res.runcnt.toNat ∧ 22 ≤ s.ser.idx.toNat ∧ s.ser.idx.toNat ≤ 30)

/-- 41_serializer.md R135: after a SEND, whatever else the host does short of ABORT and reset, SBUSY stays 1 for exactly
4992 ticks, the sum of the durations, and the last of them sets SDONE. -/
def Obligations.AirTimeIsExact : Prop :=
  ∀ s : State, Inv s → s.status.valid = true → s.status.sbusy = false →
    (heldDurations s.res).sum = 4992 ∧
    ∃ t, exec .send s = .next t ∧
      (∀ ps : List Pins, (∀ p ∈ ps, LeavesSendRunning p) → tickCount ps < 4992 →
        ∃ u, runCycles ps t = .next u ∧ u.status.sbusy = true ∧ (u.status.sdone = true → s.status.sdone = true)) ∧
      (∀ (ps : List Pins) (p : Pins), (∀ q ∈ ps, LeavesSendRunning q) → LeavesSendRunning p →
        tickCount ps = 4991 → p.usTick = true →
        ∃ u, runCycles (ps ++ [p]) t = .next u ∧ u.status.sbusy = false ∧ u.status.sdone = true ∧
          irMark u = false)

/-- 41_serializer.md R136: the envelope, tick by tick, is the message, each bit 208 ticks long, a `0` sent as mark, and
then the pause; whatever else the host does short of ABORT and reset. -/
def Obligations.EnvelopeIsTheMessage : Prop :=
  ∀ s : State, Inv s → s.status.valid = true → s.status.sbusy = false →
    ∃ t, exec .send s = .next t ∧
      ∀ ps : List Pins, (∀ p ∈ ps, LeavesSendRunning p) →
        (tickCount ps < 4784 →
          ∃ u, runCycles ps t = .next u ∧ irMark u = !msgBit s.res (tickCount ps / 208)) ∧
        (4784 ≤ tickCount ps → tickCount ps < 4992 → ∃ u, runCycles ps t = .next u ∧ irMark u = false)

/-- 41_serializer.md R138: the frame's end leaves the result held, a second SEND plays it again tick for tick, and from
the pause on the line is a space for as long as the host lets it be. -/
def Obligations.FrameCanBeSentAgain : Prop :=
  ∀ s : State, Inv s → s.status.valid = true → s.status.sbusy = false →
    ∃ t u t', exec .send s = .next t ∧ runTicks 4992 t = .next u ∧
      u.status.valid = true ∧ u.status.sbusy = false ∧ u.res = s.res ∧ exec .send u = .next t' ∧
      ∀ k : Nat, ∃ v v', runTicks k t = .next v ∧ runTicks k t' = .next v' ∧ v.ser = v'.ser ∧
        irMark v = irMark v' ∧ v.status.sbusy = v'.status.sbusy ∧ (4784 ≤ k → irMark v = false)

/-- 70_reset_and_hazards.md R200, R195, R199: with no tick, no reset and no ABORT, a send neither advances nor ends, and
nothing the host does changes the result registers. -/
def Obligations.SendWaitsForTicks : Prop :=
  ∀ (ps : List Pins) (s : State), s.status.sbusy = true →
    (∀ p ∈ ps, LeavesSendRunning p ∧ p.usTick = false) →
    ∃ u, runCycles ps s = .next u ∧ u.status.sbusy = true ∧ u.ser = s.ser ∧ irMark u = irMark s ∧
      u.res = s.res ∧ (u.status.sdone = true → s.status.sdone = true)

/-! ### Events, interrupt, same-cycle order -/

/-- 60_exceptions.md R176: `irq` is 1 exactly when an event bit, STATUS bits 4:2, has its enable, CTRL bits 3:1, set. -/
def Obligations.IrqIsTheEnabledEvents : Prop :=
  ∀ s : State,
    irq s = decide ((readWindow s 0x0C#8 >>> 1) &&& readWindow s 0x00#8 &&& 0x0000000E#32 ≠ 0#32)

/-- 70_reset_and_hazards.md R198, R197: the access first and the tick second, both performed; a SEND's tick is the first
of entry 0, an ABORT's is ignored, and the final tick sets SDONE over a clear of it. -/
def Obligations.HostAccessComesBeforeTheTick : Prop :=
  (∀ (p : Pins) (s : State), p.rstN = true →
    ∃ t, cycle { p with usTick := false } s = .next t ∧ cycle { p with usTick := true } s = tick t) ∧
    (∀ (p : Pins) (s : State), Writes p 0x08#8 0x00000002#32 → p.usTick = true → s.status.sbusy = false →
      s.status.valid = true → Inv s →
      ∃ t, cycle p s = .next t ∧ t.status.sbusy = true ∧ t.ser = ⟨0#5, true, s.res.dur[0] - 1#16⟩) ∧
    (∀ (p : Pins) (s : State), Writes p 0x08#8 0x00000003#32 → p.usTick = true → s.status.sbusy = true →
      ∃ t, cycle p s = .next t ∧ t.status.sbusy = false ∧ t.ser = ⟨0#5, false, 0#16⟩ ∧
        t.status.sdone = s.status.sdone) ∧
    (∀ (p : Pins) (s : State) (v : Word), Writes p 0x0C#8 v → p.usTick = true → s.status.sbusy = true →
      s.ser.rem = 1#16 → s.ser.idx.toNat + 1 = s.res.runcnt.toNat →
      ∃ t, cycle p s = .next t ∧ t.status.sbusy = false ∧ t.status.sdone = true)

/-- 10_state.md R26: each STATUS bit, and ERRCODE, is set and cleared by the sources the table gives it and by nothing
else, over every step of every state; `p` is the pins of the step's cycle, those of an idle cycle where the schedule is
empty (logs 1 and 2). That SDONE is set by the last entry ending alone is said of the states that meet the invariant:
without it a SEND of a one-microsecond entry could end in its own cycle. -/
def Obligations.StatusBitsChangeOnlyByTheirSources : Prop :=
  ∀ (s t : State) (p : Pins), s.inputs.headD idlePins = p → step s = .next t →
    (p.rstN = false → t.status = ⟨false, false, false, false, false, false, false, 0#4⟩) ∧
    (p.rstN = true →
      -- VALID: a completed ENCODE; CLEAR
      (s.status.valid = false → t.status.valid = true →
        Writes p 0x08#8 0x00000001#32 ∧ firstError 0x00000001#32 s = none) ∧
      (s.status.valid = true → t.status.valid = false →
        Writes p 0x08#8 0x00000004#32 ∧ firstError 0x00000004#32 s = none) ∧
      -- SBUSY: SEND; the last entry ending, ABORT
      (s.status.sbusy = false → t.status.sbusy = true →
        Writes p 0x08#8 0x00000002#32 ∧ firstError 0x00000002#32 s = none) ∧
      (s.status.sbusy = true → t.status.sbusy = false → Writes p 0x08#8 0x00000003#32 ∨
        (p.usTick = true ∧ s.ser.rem = 1#16 ∧ s.ser.idx.toNat + 1 = s.res.runcnt.toNat)) ∧
      -- EDONE: a completed ENCODE; writing 1
      (s.status.edone = false → t.status.edone = true →
        Writes p 0x08#8 0x00000001#32 ∧ firstError 0x00000001#32 s = none) ∧
      (s.status.edone = true → t.status.edone = false → ∃ v, Writes p 0x0C#8 v ∧ v.getLsbD 2 = true) ∧
      -- SDONE: the serializer finishing the last entry; writing 1
      (s.status.sdone = false → t.status.sdone = true → p.usTick = true ∧ t.status.sbusy = false) ∧
      (Inv s → s.status.sdone = false → t.status.sdone = true →
        p.usTick = true ∧ s.status.sbusy = true ∧ s.ser.rem = 1#16 ∧
          s.ser.idx.toNat + 1 = s.res.runcnt.toNat) ∧
      (s.status.sdone = true → t.status.sdone = false → ∃ v, Writes p 0x0C#8 v ∧ v.getLsbD 3 = true) ∧
      -- ERR: any command error; writing 1
      (s.status.err = false → t.status.err = true →
        ∃ w code, Writes p 0x08#8 w ∧ firstError w s = some code ∧ t.status.errcode = code) ∧
      (s.status.err = true → t.status.err = false →
        ∃ v, Writes p 0x0C#8 v ∧ v.getLsbD 4 = true ∧ t.status.errcode = 0#4) ∧
      -- ERRCODE: each command error; the write that clears ERR
      (t.status.errcode ≠ s.status.errcode →
        (∃ w code, Writes p 0x08#8 w ∧ firstError w s = some code ∧ t.status.errcode = code) ∨
        (∃ v, Writes p 0x0C#8 v ∧ v.getLsbD 4 = true ∧ t.status.errcode = 0#4 ∧ t.status.err = false)) ∧
      -- CKOVF: a completed ENCODE whose masked sum is 0; one whose masked sum is not, CLEAR
      (s.status.ckovf = false → t.status.ckovf = true →
        Writes p 0x08#8 0x00000001#32 ∧ firstError 0x00000001#32 s = none ∧
          (s.inp.ch.toNat + s.inp.orange.toNat + s.inp.yellow.toNat) % 16 = 0) ∧
      (s.status.ckovf = true → t.status.ckovf = false →
        (Writes p 0x08#8 0x00000001#32 ∧ firstError 0x00000001#32 s = none ∧
          (s.inp.ch.toNat + s.inp.orange.toNat + s.inp.yellow.toNat) % 16 ≠ 0) ∨
        (Writes p 0x08#8 0x00000004#32 ∧ firstError 0x00000004#32 s = none)) ∧
      -- INVCODE: a completed ENCODE with a non-member; one of members, CLEAR
      (s.status.invcode = false → t.status.invcode = true →
        Writes p 0x08#8 0x00000001#32 ∧ firstError 0x00000001#32 s = none ∧ ¬ IsMember s.inp) ∧
      (s.status.invcode = true → t.status.invcode = false →
        (Writes p 0x08#8 0x00000001#32 ∧ firstError 0x00000001#32 s = none ∧ IsMember s.inp) ∨
        (Writes p 0x08#8 0x00000004#32 ∧ firstError 0x00000004#32 s = none)))

/-- 10_state.md R24, R33, R34, 70_reset_and_hazards.md R196: each register changes only by the accesses and the tick the
spec gives it, over every step out of reset with a cycle scheduled. -/
def Obligations.RegistersChangeOnlyByTheirWriters : Prop :=
  ∀ (s t : State) (p : Pins) (rest : List Pins), s.inputs = p :: rest → step s = .next t → p.rstN = true →
    (t.res ≠ s.res → Writes p 0x08#8 0x00000001#32 ∨ Writes p 0x08#8 0x00000004#32) ∧
    (t.ctrl ≠ s.ctrl → ∃ v, Writes p 0x00#8 v) ∧
    (t.inp ≠ s.inp → ∃ v, Writes p 0x04#8 v) ∧
    (t.ser ≠ s.ser →
      p.usTick = true ∨ Writes p 0x08#8 0x00000002#32 ∨ Writes p 0x08#8 0x00000003#32) ∧
    t.inputs = rest

/-! ### Invariants and whole runs -/

/-- The reset state meets the invariant (10_state.md R35, R36). -/
def Obligations.ResetMeetsTheInvariant : Prop :=
  Inv State.reset

/-- Every step of every state that meets the invariant gives a state that meets it: the results stay one consistent set
(10_state.md R35), SERSTAT is 0 while idle and in range while busy (R32), and ERRCODE keeps to its codes
(60_exceptions.md R170). -/
def Obligations.StepKeepsTheInvariant : Prop :=
  ∀ s t : State, Inv s → step s = .next t → Inv t

/-- 60_exceptions.md R173, 41_serializer.md R132: from a state that meets the invariant no schedule of cycles, of any
accesses, ticks and resets, ever stops the machine. -/
def Obligations.NoScheduleStopsTheMachine : Prop :=
  ∀ (ps : List Pins) (s : State), Inv s → ∃ t, runCycles ps s = .next t ∧ Inv t

/-- The step function over a schedule held in State is the run of the schedule's cycles, one a step, in order
(20_memory.md R60; the schedule is the model's own, log 1). -/
def Obligations.StepsRunTheScheduleInOrder : Prop :=
  ∀ (ps rest : List Pins) (s : State),
    core.run ps.length { s with inputs := ps ++ rest } = runCycles ps { s with inputs := rest }

/-- 30_encoding.md R80: a POLL that ends has read a matching value in its last read, and none of the reads before
changed a register while the serializer was idle. -/
def Obligations.PollEndsOnAMatchingRead : Prop :=
  ∀ (off : Offset) (mask value : Word) (gaps : List Nat) (s u : State),
    runPoll off mask value gaps s = some (.next u) →
      u.busRdata &&& mask = value ∧
      (off.toNat % 4 = 0 → u.busErr = false ∧ readWindow u off &&& mask = value) ∧
      (s.status.sbusy = false → ∀ o : Offset, readWindow u o = readWindow s o)
end

