-- ==== Sys2Proof/Laws/Datapath.lean ====
section
/-! SUPPORT. One lemma per unit of the datapath that its users cite: what the run scan keeps, and where it may be cut. -/

namespace Sys2Proof.Machine

/-- A scan's first run is at least as long as what it has counted. -/
theorem runsFrom_ne_nil (b : Bool) (k : Nat) (m : List Bool) : runsFrom b k m ≠ [] := by
  induction m generalizing b k with
  | nil => simp [runsFrom]
  | cons c t ih =>
    unfold runsFrom
    split
    · exact ih b (k + 1)
    · simp

/-- The run lengths add up to the bits scanned (40_encode_datapath.md R111). -/
theorem runsFrom_sum (b : Bool) (k : Nat) (m : List Bool) : (runsFrom b k m).sum = k + m.length := by
  induction m generalizing b k with
  | nil => simp [runsFrom]
  | cons c t ih =>
    unfold runsFrom
    split
    · rw [ih, List.length_cons]; omega
    · rw [List.sum_cons, ih, List.length_cons]; omega

theorem runs_sum (m : List Bool) : (runs m).sum = m.length := by
  cases m with
  | nil => rfl
  | cons b t => simp only [runs, runsFrom_sum, List.length_cons]; omega

/-- No run is empty. -/
theorem runsFrom_pos (b : Bool) (k : Nat) (hk : 1 ≤ k) (m : List Bool) : ∀ l ∈ runsFrom b k m, 1 ≤ l := by
  induction m generalizing b k with
  | nil => simpa [runsFrom] using hk
  | cons c t ih =>
    unfold runsFrom
    split
    · exact ih b (k + 1) (by omega)
    · intro l hl
      rcases List.mem_cons.1 hl with rfl | hl
      · exact hk
      · exact ih c 1 (le_refl 1) l hl

/-- A scan may be cut wherever two neighbouring bits differ; the separator and the second start bit are such a place. -/
theorem runsFrom_append (b : Bool) (k : Nat) (m : List Bool) (c : Bool) (t : List Bool) :
    (m.getLast?.getD b ≠ c) → runsFrom b k (m ++ c :: t) = runsFrom b k m ++ runs (c :: t) := by
  induction m generalizing b k with
  | nil =>
    intro h
    have h : c ≠ b := fun e => h (by simp [e])
    simp [runsFrom, runs, if_neg h]
  | cons d m ih =>
    intro h
    have hl : m.getLast?.getD d ≠ c := by
      cases m with
      | nil => simpa using h
      | cons e m =>
        obtain ⟨x, hx⟩ : ∃ x, (e :: m).getLast? = some x := ⟨_, List.getLast?_eq_getLast_of_ne_nil (by simp)⟩
        rw [List.getLast?_cons_cons, hx] at h
        simpa [hx] using h
    by_cases hd : d = b
    · subst hd
      simp only [List.cons_append, runsFrom, if_true]
      exact ih d (k + 1) hl
    · simp only [List.cons_append, runsFrom, if_neg hd]
      rw [ih d 1 hl]

/-- The runs of a message are those of frame 1 with the separator, then those of frame 2: bit 11 is `1` and bit 12 `0`
(30_encoding.md R79). -/
theorem runs_message (r1 r2 : Byte) (p1 p2 : Bool) :
    runs (message r1 p1 r2 p2) = runs (frame r1 p1 ++ [true]) ++ runs (frame r2 p2) := by
  have hsplit : message r1 p1 r2 p2 = (frame r1 p1 ++ [true]) ++ frame r2 p2 := by simp [message]
  rw [hsplit]
  exact runsFrom_append false 1 [r1[7], r1[6], r1[5], r1[4], r1[3], r1[2], r1[1], r1[0], p1, true, true] false
    [r2[7], r2[6], r2[5], r2[4], r2[3], r2[2], r2[1], r2[0], p2, true] (by simp)

end Sys2Proof.Machine
end

