-- ==== Sys2Proof/Laws/State.lean ====
section
/-! SUPPORT. One lemma per field per named update of State, each true by rfl, so that no later proof unfolds a record
update. -/

namespace Sys2Proof.Machine

section
variable (v : Word) (s : State)

@[simp] theorem writeCtrl_ctrl : (writeCtrl v s).ctrl = ctrlOfWord v := rfl
@[simp] theorem writeCtrl_inp : (writeCtrl v s).inp = s.inp := rfl
@[simp] theorem writeCtrl_res : (writeCtrl v s).res = s.res := rfl
@[simp] theorem writeCtrl_ser : (writeCtrl v s).ser = s.ser := rfl
@[simp] theorem writeCtrl_busErr : (writeCtrl v s).busErr = s.busErr := rfl
@[simp] theorem writeCtrl_busRdata : (writeCtrl v s).busRdata = s.busRdata := rfl
@[simp] theorem writeCtrl_inputs : (writeCtrl v s).inputs = s.inputs := rfl
@[simp] theorem writeCtrl_freeCount : (writeCtrl v s).freeCount = s.freeCount := rfl
@[simp] theorem writeCtrl_status_valid : (writeCtrl v s).status.valid = s.status.valid := rfl
@[simp] theorem writeCtrl_status_sbusy : (writeCtrl v s).status.sbusy = s.status.sbusy := rfl
@[simp] theorem writeCtrl_status_edone : (writeCtrl v s).status.edone = s.status.edone := rfl
@[simp] theorem writeCtrl_status_sdone : (writeCtrl v s).status.sdone = s.status.sdone := rfl
@[simp] theorem writeCtrl_status_err : (writeCtrl v s).status.err = s.status.err := rfl
@[simp] theorem writeCtrl_status_ckovf : (writeCtrl v s).status.ckovf = s.status.ckovf := rfl
@[simp] theorem writeCtrl_status_invcode : (writeCtrl v s).status.invcode = s.status.invcode := rfl
@[simp] theorem writeCtrl_status_errcode : (writeCtrl v s).status.errcode = s.status.errcode := rfl

end

section
variable (v : Word) (s : State)

@[simp] theorem writeIn_ctrl : (writeIn v s).ctrl = s.ctrl := rfl
@[simp] theorem writeIn_inp : (writeIn v s).inp = tripleOfWord v := rfl
@[simp] theorem writeIn_res : (writeIn v s).res = s.res := rfl
@[simp] theorem writeIn_ser : (writeIn v s).ser = s.ser := rfl
@[simp] theorem writeIn_busErr : (writeIn v s).busErr = s.busErr := rfl
@[simp] theorem writeIn_busRdata : (writeIn v s).busRdata = s.busRdata := rfl
@[simp] theorem writeIn_inputs : (writeIn v s).inputs = s.inputs := rfl
@[simp] theorem writeIn_freeCount : (writeIn v s).freeCount = s.freeCount := rfl
@[simp] theorem writeIn_status_valid : (writeIn v s).status.valid = s.status.valid := rfl
@[simp] theorem writeIn_status_sbusy : (writeIn v s).status.sbusy = s.status.sbusy := rfl
@[simp] theorem writeIn_status_edone : (writeIn v s).status.edone = s.status.edone := rfl
@[simp] theorem writeIn_status_sdone : (writeIn v s).status.sdone = s.status.sdone := rfl
@[simp] theorem writeIn_status_err : (writeIn v s).status.err = s.status.err := rfl
@[simp] theorem writeIn_status_ckovf : (writeIn v s).status.ckovf = s.status.ckovf := rfl
@[simp] theorem writeIn_status_invcode : (writeIn v s).status.invcode = s.status.invcode := rfl
@[simp] theorem writeIn_status_errcode : (writeIn v s).status.errcode = s.status.errcode := rfl

end

section
variable (v : Word) (s : State)

@[simp] theorem acknowledge_ctrl : (acknowledge v s).ctrl = s.ctrl := rfl
@[simp] theorem acknowledge_inp : (acknowledge v s).inp = s.inp := rfl
@[simp] theorem acknowledge_res : (acknowledge v s).res = s.res := rfl
@[simp] theorem acknowledge_ser : (acknowledge v s).ser = s.ser := rfl
@[simp] theorem acknowledge_busErr : (acknowledge v s).busErr = s.busErr := rfl
@[simp] theorem acknowledge_busRdata : (acknowledge v s).busRdata = s.busRdata := rfl
@[simp] theorem acknowledge_inputs : (acknowledge v s).inputs = s.inputs := rfl
@[simp] theorem acknowledge_freeCount : (acknowledge v s).freeCount = s.freeCount := rfl
@[simp] theorem acknowledge_status_valid : (acknowledge v s).status.valid = s.status.valid := rfl
@[simp] theorem acknowledge_status_sbusy : (acknowledge v s).status.sbusy = s.status.sbusy := rfl
@[simp] theorem acknowledge_status_edone : (acknowledge v s).status.edone = (s.status.edone && !v[2]) := rfl
@[simp] theorem acknowledge_status_sdone : (acknowledge v s).status.sdone = (s.status.sdone && !v[3]) := rfl
@[simp] theorem acknowledge_status_err : (acknowledge v s).status.err = (s.status.err && !v[4]) := rfl
@[simp] theorem acknowledge_status_ckovf : (acknowledge v s).status.ckovf = s.status.ckovf := rfl
@[simp] theorem acknowledge_status_invcode : (acknowledge v s).status.invcode = s.status.invcode := rfl
@[simp] theorem acknowledge_status_errcode : (acknowledge v s).status.errcode = if v[4] then 0#4 else s.status.errcode := rfl

end

section
variable (e : ErrKind) (s : State)

@[simp] theorem raiseError_ctrl : (raiseError e s).ctrl = s.ctrl := rfl
@[simp] theorem raiseError_inp : (raiseError e s).inp = s.inp := rfl
@[simp] theorem raiseError_res : (raiseError e s).res = s.res := rfl
@[simp] theorem raiseError_ser : (raiseError e s).ser = s.ser := rfl
@[simp] theorem raiseError_busErr : (raiseError e s).busErr = s.busErr := rfl
@[simp] theorem raiseError_busRdata : (raiseError e s).busRdata = s.busRdata := rfl
@[simp] theorem raiseError_inputs : (raiseError e s).inputs = s.inputs := rfl
@[simp] theorem raiseError_freeCount : (raiseError e s).freeCount = s.freeCount := rfl
@[simp] theorem raiseError_status_valid : (raiseError e s).status.valid = s.status.valid := rfl
@[simp] theorem raiseError_status_sbusy : (raiseError e s).status.sbusy = s.status.sbusy := rfl
@[simp] theorem raiseError_status_edone : (raiseError e s).status.edone = s.status.edone := rfl
@[simp] theorem raiseError_status_sdone : (raiseError e s).status.sdone = s.status.sdone := rfl
@[simp] theorem raiseError_status_err : (raiseError e s).status.err = true := rfl
@[simp] theorem raiseError_status_ckovf : (raiseError e s).status.ckovf = s.status.ckovf := rfl
@[simp] theorem raiseError_status_invcode : (raiseError e s).status.invcode = s.status.invcode := rfl
@[simp] theorem raiseError_status_errcode : (raiseError e s).status.errcode = errCodeOf e := rfl

end

section
variable (r : Results) (k i : Bool) (s : State)

@[simp] theorem storeResults_ctrl : (storeResults r k i s).ctrl = s.ctrl := rfl
@[simp] theorem storeResults_inp : (storeResults r k i s).inp = s.inp := rfl
@[simp] theorem storeResults_res : (storeResults r k i s).res = r := rfl
@[simp] theorem storeResults_ser : (storeResults r k i s).ser = s.ser := rfl
@[simp] theorem storeResults_busErr : (storeResults r k i s).busErr = s.busErr := rfl
@[simp] theorem storeResults_busRdata : (storeResults r k i s).busRdata = s.busRdata := rfl
@[simp] theorem storeResults_inputs : (storeResults r k i s).inputs = s.inputs := rfl
@[simp] theorem storeResults_freeCount : (storeResults r k i s).freeCount = s.freeCount := rfl
@[simp] theorem storeResults_status_valid : (storeResults r k i s).status.valid = true := rfl
@[simp] theorem storeResults_status_sbusy : (storeResults r k i s).status.sbusy = s.status.sbusy := rfl
@[simp] theorem storeResults_status_edone : (storeResults r k i s).status.edone = true := rfl
@[simp] theorem storeResults_status_sdone : (storeResults r k i s).status.sdone = s.status.sdone := rfl
@[simp] theorem storeResults_status_err : (storeResults r k i s).status.err = s.status.err := rfl
@[simp] theorem storeResults_status_ckovf : (storeResults r k i s).status.ckovf = k := rfl
@[simp] theorem storeResults_status_invcode : (storeResults r k i s).status.invcode = i := rfl
@[simp] theorem storeResults_status_errcode : (storeResults r k i s).status.errcode = s.status.errcode := rfl

end

section
variable (s : State)

@[simp] theorem clearResults_ctrl : (clearResults s).ctrl = s.ctrl := rfl
@[simp] theorem clearResults_inp : (clearResults s).inp = s.inp := rfl
@[simp] theorem clearResults_res : (clearResults s).res = Results.zero := rfl
@[simp] theorem clearResults_ser : (clearResults s).ser = s.ser := rfl
@[simp] theorem clearResults_busErr : (clearResults s).busErr = s.busErr := rfl
@[simp] theorem clearResults_busRdata : (clearResults s).busRdata = s.busRdata := rfl
@[simp] theorem clearResults_inputs : (clearResults s).inputs = s.inputs := rfl
@[simp] theorem clearResults_freeCount : (clearResults s).freeCount = s.freeCount := rfl
@[simp] theorem clearResults_status_valid : (clearResults s).status.valid = false := rfl
@[simp] theorem clearResults_status_sbusy : (clearResults s).status.sbusy = s.status.sbusy := rfl
@[simp] theorem clearResults_status_edone : (clearResults s).status.edone = s.status.edone := rfl
@[simp] theorem clearResults_status_sdone : (clearResults s).status.sdone = s.status.sdone := rfl
@[simp] theorem clearResults_status_err : (clearResults s).status.err = s.status.err := rfl
@[simp] theorem clearResults_status_ckovf : (clearResults s).status.ckovf = false := rfl
@[simp] theorem clearResults_status_invcode : (clearResults s).status.invcode = false := rfl
@[simp] theorem clearResults_status_errcode : (clearResults s).status.errcode = s.status.errcode := rfl

end

section
variable (e : Bool) (d : Word) (s : State)

@[simp] theorem respond_ctrl : (respond e d s).ctrl = s.ctrl := rfl
@[simp] theorem respond_inp : (respond e d s).inp = s.inp := rfl
@[simp] theorem respond_status : (respond e d s).status = s.status := rfl
@[simp] theorem respond_res : (respond e d s).res = s.res := rfl
@[simp] theorem respond_ser : (respond e d s).ser = s.ser := rfl
@[simp] theorem respond_busErr : (respond e d s).busErr = e := rfl
@[simp] theorem respond_busRdata : (respond e d s).busRdata = d := rfl
@[simp] theorem respond_inputs : (respond e d s).inputs = s.inputs := rfl
@[simp] theorem respond_freeCount : (respond e d s).freeCount = s.freeCount := rfl

end

section
variable (s : State)

@[simp] theorem respondWrite_ctrl : (respondWrite s).ctrl = s.ctrl := rfl
@[simp] theorem respondWrite_inp : (respondWrite s).inp = s.inp := rfl
@[simp] theorem respondWrite_status : (respondWrite s).status = s.status := rfl
@[simp] theorem respondWrite_res : (respondWrite s).res = s.res := rfl
@[simp] theorem respondWrite_ser : (respondWrite s).ser = s.ser := rfl
@[simp] theorem respondWrite_busErr : (respondWrite s).busErr = false := rfl
@[simp] theorem respondWrite_busRdata : (respondWrite s).busRdata = Config.freeBusRdata s.freeCount := rfl
@[simp] theorem respondWrite_inputs : (respondWrite s).inputs = s.inputs := rfl
@[simp] theorem respondWrite_freeCount : (respondWrite s).freeCount = s.freeCount + 1 := rfl

end

section
variable (s : State)

@[simp] theorem respondNone_ctrl : (respondNone s).ctrl = s.ctrl := rfl
@[simp] theorem respondNone_inp : (respondNone s).inp = s.inp := rfl
@[simp] theorem respondNone_status : (respondNone s).status = s.status := rfl
@[simp] theorem respondNone_res : (respondNone s).res = s.res := rfl
@[simp] theorem respondNone_ser : (respondNone s).ser = s.ser := rfl
@[simp] theorem respondNone_busErr : (respondNone s).busErr = Config.freeBusErr s.freeCount := rfl
@[simp] theorem respondNone_busRdata : (respondNone s).busRdata = Config.freeBusRdata s.freeCount := rfl
@[simp] theorem respondNone_inputs : (respondNone s).inputs = s.inputs := rfl
@[simp] theorem respondNone_freeCount : (respondNone s).freeCount = s.freeCount + 1 := rfl

end

section
variable (s : State)

@[simp] theorem startSerializer_ctrl : (startSerializer s).ctrl = s.ctrl := rfl
@[simp] theorem startSerializer_inp : (startSerializer s).inp = s.inp := rfl
@[simp] theorem startSerializer_res : (startSerializer s).res = s.res := rfl
@[simp] theorem startSerializer_ser : (startSerializer s).ser = ⟨0#5, true, s.res.dur[0]⟩ := rfl
@[simp] theorem startSerializer_busErr : (startSerializer s).busErr = s.busErr := rfl
@[simp] theorem startSerializer_busRdata : (startSerializer s).busRdata = s.busRdata := rfl
@[simp] theorem startSerializer_inputs : (startSerializer s).inputs = s.inputs := rfl
@[simp] theorem startSerializer_freeCount : (startSerializer s).freeCount = s.freeCount := rfl
@[simp] theorem startSerializer_status_valid : (startSerializer s).status.valid = s.status.valid := rfl
@[simp] theorem startSerializer_status_sbusy : (startSerializer s).status.sbusy = true := rfl
@[simp] theorem startSerializer_status_edone : (startSerializer s).status.edone = s.status.edone := rfl
@[simp] theorem startSerializer_status_sdone : (startSerializer s).status.sdone = s.status.sdone := rfl
@[simp] theorem startSerializer_status_err : (startSerializer s).status.err = s.status.err := rfl
@[simp] theorem startSerializer_status_ckovf : (startSerializer s).status.ckovf = s.status.ckovf := rfl
@[simp] theorem startSerializer_status_invcode : (startSerializer s).status.invcode = s.status.invcode := rfl
@[simp] theorem startSerializer_status_errcode : (startSerializer s).status.errcode = s.status.errcode := rfl

end

section
variable (s : State)

@[simp] theorem stopSerializer_ctrl : (stopSerializer s).ctrl = s.ctrl := rfl
@[simp] theorem stopSerializer_inp : (stopSerializer s).inp = s.inp := rfl
@[simp] theorem stopSerializer_res : (stopSerializer s).res = s.res := rfl
@[simp] theorem stopSerializer_ser : (stopSerializer s).ser = SerStat.zero := rfl
@[simp] theorem stopSerializer_busErr : (stopSerializer s).busErr = s.busErr := rfl
@[simp] theorem stopSerializer_busRdata : (stopSerializer s).busRdata = s.busRdata := rfl
@[simp] theorem stopSerializer_inputs : (stopSerializer s).inputs = s.inputs := rfl
@[simp] theorem stopSerializer_freeCount : (stopSerializer s).freeCount = s.freeCount := rfl
@[simp] theorem stopSerializer_status_valid : (stopSerializer s).status.valid = s.status.valid := rfl
@[simp] theorem stopSerializer_status_sbusy : (stopSerializer s).status.sbusy = false := rfl
@[simp] theorem stopSerializer_status_edone : (stopSerializer s).status.edone = s.status.edone := rfl
@[simp] theorem stopSerializer_status_sdone : (stopSerializer s).status.sdone = s.status.sdone := rfl
@[simp] theorem stopSerializer_status_err : (stopSerializer s).status.err = s.status.err := rfl
@[simp] theorem stopSerializer_status_ckovf : (stopSerializer s).status.ckovf = s.status.ckovf := rfl
@[simp] theorem stopSerializer_status_invcode : (stopSerializer s).status.invcode = s.status.invcode := rfl
@[simp] theorem stopSerializer_status_errcode : (stopSerializer s).status.errcode = s.status.errcode := rfl

end

section
variable (s : State)

@[simp] theorem finishFrame_ctrl : (finishFrame s).ctrl = s.ctrl := rfl
@[simp] theorem finishFrame_inp : (finishFrame s).inp = s.inp := rfl
@[simp] theorem finishFrame_res : (finishFrame s).res = s.res := rfl
@[simp] theorem finishFrame_ser : (finishFrame s).ser = SerStat.zero := rfl
@[simp] theorem finishFrame_busErr : (finishFrame s).busErr = s.busErr := rfl
@[simp] theorem finishFrame_busRdata : (finishFrame s).busRdata = s.busRdata := rfl
@[simp] theorem finishFrame_inputs : (finishFrame s).inputs = s.inputs := rfl
@[simp] theorem finishFrame_freeCount : (finishFrame s).freeCount = s.freeCount := rfl
@[simp] theorem finishFrame_status_valid : (finishFrame s).status.valid = s.status.valid := rfl
@[simp] theorem finishFrame_status_sbusy : (finishFrame s).status.sbusy = false := rfl
@[simp] theorem finishFrame_status_edone : (finishFrame s).status.edone = s.status.edone := rfl
@[simp] theorem finishFrame_status_sdone : (finishFrame s).status.sdone = true := rfl
@[simp] theorem finishFrame_status_err : (finishFrame s).status.err = s.status.err := rfl
@[simp] theorem finishFrame_status_ckovf : (finishFrame s).status.ckovf = s.status.ckovf := rfl
@[simp] theorem finishFrame_status_invcode : (finishFrame s).status.invcode = s.status.invcode := rfl
@[simp] theorem finishFrame_status_errcode : (finishFrame s).status.errcode = s.status.errcode := rfl

end

section
variable (m : Micros) (s : State)

@[simp] theorem countDown_ctrl : (countDown m s).ctrl = s.ctrl := rfl
@[simp] theorem countDown_inp : (countDown m s).inp = s.inp := rfl
@[simp] theorem countDown_status : (countDown m s).status = s.status := rfl
@[simp] theorem countDown_res : (countDown m s).res = s.res := rfl
@[simp] theorem countDown_ser : (countDown m s).ser = ⟨s.ser.idx, s.ser.level, m⟩ := rfl
@[simp] theorem countDown_busErr : (countDown m s).busErr = s.busErr := rfl
@[simp] theorem countDown_busRdata : (countDown m s).busRdata = s.busRdata := rfl
@[simp] theorem countDown_inputs : (countDown m s).inputs = s.inputs := rfl
@[simp] theorem countDown_freeCount : (countDown m s).freeCount = s.freeCount := rfl

end

section
variable (j : BitVec 5) (m : Micros) (s : State)

@[simp] theorem enterEntry_ctrl : (enterEntry j m s).ctrl = s.ctrl := rfl
@[simp] theorem enterEntry_inp : (enterEntry j m s).inp = s.inp := rfl
@[simp] theorem enterEntry_status : (enterEntry j m s).status = s.status := rfl
@[simp] theorem enterEntry_res : (enterEntry j m s).res = s.res := rfl
@[simp] theorem enterEntry_ser : (enterEntry j m s).ser = ⟨j, !s.ser.level, m⟩ := rfl
@[simp] theorem enterEntry_busErr : (enterEntry j m s).busErr = s.busErr := rfl
@[simp] theorem enterEntry_busRdata : (enterEntry j m s).busRdata = s.busRdata := rfl
@[simp] theorem enterEntry_inputs : (enterEntry j m s).inputs = s.inputs := rfl
@[simp] theorem enterEntry_freeCount : (enterEntry j m s).freeCount = s.freeCount := rfl

end

section
variable (s : State)

@[simp] theorem resetCycle_ctrl : (resetCycle s).ctrl = State.reset.ctrl := rfl
@[simp] theorem resetCycle_inp : (resetCycle s).inp = State.reset.inp := rfl
@[simp] theorem resetCycle_status : (resetCycle s).status = State.reset.status := rfl
@[simp] theorem resetCycle_res : (resetCycle s).res = State.reset.res := rfl
@[simp] theorem resetCycle_ser : (resetCycle s).ser = State.reset.ser := rfl
@[simp] theorem resetCycle_busErr : (resetCycle s).busErr = false := rfl
@[simp] theorem resetCycle_busRdata : (resetCycle s).busRdata = 0 := rfl
@[simp] theorem resetCycle_inputs : (resetCycle s).inputs = s.inputs := rfl
@[simp] theorem resetCycle_freeCount : (resetCycle s).freeCount = s.freeCount := rfl

end

end Sys2Proof.Machine
end

