-- ==== Sys2Proof/Laws/Ops.lean ====
section
/-! SUPPORT. One inversion lemma per meaning and shared operation: everything it can do, said once. -/

namespace Sys2Proof.Machine

variable {s t : State}

/-- The offset of a register names that register. -/
@[simp] theorem regAt_regOffset (r : Reg) : regAt (regOffset r) = some r := by
  cases r with
  | dur i => revert i; decide
  | _ => decide

/-- What a command does to the registers when it answers a next state. -/
inductive CommandEffect (s : State) : Instr → State → Prop where
  | unchanged (i : Instr) (h : i = .nop ∨ (i = .abort ∧ s.status.sbusy = false)) : CommandEffect s i s
  | busy (i : Instr) (h : i = .encode ∨ i = .send ∨ i = .clear) (hb : s.status.sbusy = true) :
      CommandEffect s i (raiseError .busy s)
  | notValid (hb : s.status.sbusy = false) (hv : s.status.valid = false) :
      CommandEffect s .send (raiseError .notValid s)
  | invalidCode (hb : s.status.sbusy = false) (hc : s.ctrl.strict = true) (hm : hasNonMember s.inp = true) :
      CommandEffect s .encode (raiseError .invalidCode s)
  | encoded (hb : s.status.sbusy = false) (hc : s.ctrl.strict = false ∨ hasNonMember s.inp = false) :
      CommandEffect s .encode
        (storeResults (encodeTriple s.inp) (checkOverflows s.inp) (hasNonMember s.inp) s)
  | started (hb : s.status.sbusy = false) (hv : s.status.valid = true) : CommandEffect s .send (startSerializer s)
  | stopped (hb : s.status.sbusy = true) : CommandEffect s .abort (stopSerializer s)
  | cleared (hb : s.status.sbusy = false) : CommandEffect s .clear (clearResults s)

/-- Every command answers a next state, and that state is one of its effects. -/
theorem exec_effect (i : Instr) (s : State) : ∃ t, exec i s = .next t ∧ CommandEffect s i t := by
  cases i with
  | nop => exact ⟨s, rfl, .unchanged _ (.inl rfl)⟩
  | encode =>
    by_cases hb : s.status.sbusy = true
    · exact ⟨_, by simp [exec, execEncode, hb], .busy _ (.inl rfl) hb⟩
    · simp only [Bool.not_eq_true] at hb
      by_cases hc : s.ctrl.strict = true ∧ hasNonMember s.inp = true
      · exact ⟨_, by simp [exec, execEncode, hb, hc.1, hc.2], .invalidCode hb hc.1 hc.2⟩
      · refine ⟨_, ?_, .encoded hb ?_⟩
        · simp only [exec, execEncode, hb, Bool.and_eq_true, if_neg hc]
          rfl
        · revert hc
          cases s.ctrl.strict <;> cases hasNonMember s.inp <;> simp
  | send =>
    by_cases hb : s.status.sbusy = true
    · exact ⟨_, by simp [exec, execSend, hb], .busy _ (.inr (.inl rfl)) hb⟩
    · simp only [Bool.not_eq_true] at hb
      by_cases hv : s.status.valid = true
      · exact ⟨_, by simp [exec, execSend, hb, hv], .started hb hv⟩
      · simp only [Bool.not_eq_true] at hv
        exact ⟨_, by simp [exec, execSend, hb, hv], .notValid hb hv⟩
  | abort =>
    by_cases hb : s.status.sbusy = true
    · exact ⟨_, by simp [exec, execAbort, hb], .stopped hb⟩
    · simp only [Bool.not_eq_true] at hb
      exact ⟨_, by simp [exec, execAbort, hb], .unchanged _ (.inr ⟨rfl, hb⟩)⟩
  | clear =>
    by_cases hb : s.status.sbusy = true
    · exact ⟨_, by simp [exec, execClear, hb], .busy _ (.inr (.inr rfl)) hb⟩
    · simp only [Bool.not_eq_true] at hb
      exact ⟨_, by simp [exec, execClear, hb], .cleared hb⟩

theorem exec_cases {i : Instr} (h : exec i s = .next t) : CommandEffect s i t := by
  obtain ⟨u, hu, he⟩ := exec_effect i s
  rw [hu] at h
  cases h
  exact he

/-- What a serializer step does. -/
inductive TickEffect (s : State) : Host.Outcome State Fault Refusal → Prop where
  | idle (hb : s.status.sbusy = false) : TickEffect s (.next s)
  | counted (hb : s.status.sbusy = true) (hr : s.ser.rem - 1#16 ≠ 0#16) :
      TickEffect s (.next (countDown (s.ser.rem - 1#16) s))
  | finished (hb : s.status.sbusy = true) (hr : s.ser.rem - 1#16 = 0#16)
      (hi : s.ser.idx.toNat + 1 = s.res.runcnt.toNat) : TickEffect s (.next (finishFrame s))
  | entered (us : Micros) (hb : s.status.sbusy = true) (hr : s.ser.rem - 1#16 = 0#16)
      (hi : s.ser.idx.toNat + 1 ≠ s.res.runcnt.toNat) (hd : s.res.dur[(s.ser.idx + 1#5).toNat]? = some us) :
      TickEffect s (.next (enterEntry (s.ser.idx + 1#5) us s))
  | outside (hb : s.status.sbusy = true) (hr : s.ser.rem - 1#16 = 0#16)
      (hi : s.ser.idx.toNat + 1 ≠ s.res.runcnt.toNat) (hd : s.res.dur[(s.ser.idx + 1#5).toNat]? = none) :
      TickEffect s (.fault .serializerIndexOutsideTable)

theorem tick_effect (s : State) : TickEffect s (tick s) := by
  unfold tick
  split
  · exact .idle (by simp_all)
  · rename_i hb
    have hb : s.status.sbusy = true := by simpa using hb
    by_cases hr : s.ser.rem - 1#16 = 0#16
    · by_cases hi : s.ser.idx.toNat + 1 = s.res.runcnt.toNat
      · simp only [hr, hi, ne_eq, not_true_eq_false, if_false, if_true]
        exact .finished hb hr hi
      · simp only [hr, ne_eq, not_true_eq_false, if_false, if_neg hi]
        cases hd : s.res.dur[(s.ser.idx + 1#5).toNat]? with
        | some us => exact .entered us hb hr hi hd
        | none => exact .outside hb hr hi hd
    · simp only [ne_eq, hr, not_false_eq_true, if_true]
      exact .counted hb hr

/-- What a write of `v` at `off` does to the registers. -/
inductive WriteEffect (s : State) (off : Offset) (v : Word) : State → Prop where
  | ctrl (h : off = 0x00#8) : WriteEffect s off v (writeCtrl v s)
  | inp (h : off = 0x04#8) : WriteEffect s off v (writeIn v s)
  | status (h : off = 0x0C#8) : WriteEffect s off v (acknowledge v s)
  | illegal (h : off = 0x08#8) (e : DecodeReject) (hd : decodeWord v = .error e) :
      WriteEffect s off v (raiseError .illegalCmd s)
  | command (h : off = 0x08#8) (i : Instr) (t : State) (hd : decodeWord v = .ok i) (he : CommandEffect s i t) :
      WriteEffect s off v t
  | ignored (h : off ≠ 0x00#8 ∧ off ≠ 0x04#8 ∧ off ≠ 0x08#8 ∧ off ≠ 0x0C#8) : WriteEffect s off v s

/-- Only the four writable offsets name a writable register. -/
theorem regAt_low : ∀ off : Offset,
    (regAt off = some .ctrl ↔ off = 0x00#8) ∧ (regAt off = some .inp ↔ off = 0x04#8) ∧
      (regAt off = some .cmd ↔ off = 0x08#8) ∧ (regAt off = some .status ↔ off = 0x0C#8) := by
  decide +kernel

theorem writeWindow_effect (off : Offset) (v : Word) (s : State) :
    ∃ t, writeWindow off v s = .next t ∧ WriteEffect s off v t := by
  obtain ⟨h0, h4, h8, hC⟩ := regAt_low off
  unfold writeWindow
  split
  · exact ⟨_, rfl, .ctrl (h0.1 ‹_›)⟩
  · exact ⟨_, rfl, .inp (h4.1 ‹_›)⟩
  · have h := h8.1 ‹_›
    unfold runCommandWord
    cases hd : decodeWord v with
    | ok i =>
      obtain ⟨t, ht, he⟩ := exec_effect i s
      exact ⟨t, ht, .command h i t hd he⟩
    | error e => exact ⟨_, rfl, .illegal h e hd⟩
  · exact ⟨_, rfl, .status (hC.1 ‹_›)⟩
  all_goals
    refine ⟨s, rfl, .ignored ⟨?_, ?_, ?_, ?_⟩⟩ <;> intro h <;> subst h <;> simp_all [regAt]

/-- What the host's part of a cycle does. -/
inductive AccessEffect (p : Pins) (s : State) : State → Prop where
  | none (h : p.busSel = false) : AccessEffect p s (respondNone s)
  | busError (h : p.busSel = true) (hd : accessIsDefined p.busSize p.busAddr = false) :
      AccessEffect p s (respond true 0#32 s)
  | read (h : p.busSel = true) (hw : p.busWe = false) (hd : accessIsDefined p.busSize p.busAddr = true) :
      AccessEffect p s (respond false (readWindow s p.busAddr) s)
  | write (t : State) (h : p.busSel = true) (hw : p.busWe = true)
      (hd : accessIsDefined p.busSize p.busAddr = true) (he : WriteEffect s p.busAddr p.busWdata t) :
      AccessEffect p s (respondWrite t)

theorem hostAccess_effect (p : Pins) (s : State) : ∃ t, hostAccess p s = .next t ∧ AccessEffect p s t := by
  unfold hostAccess
  cases hs : p.busSel with
  | false => exact ⟨_, rfl, .none hs⟩
  | true =>
    cases hw : p.busWe with
    | false =>
      cases hd : accessIsDefined p.busSize p.busAddr with
      | false => exact ⟨_, by simp [busRead, hd], .busError hs hd⟩
      | true => exact ⟨_, by simp [busRead, hd], .read hs hw hd⟩
    | true =>
      cases hd : accessIsDefined p.busSize p.busAddr with
      | false => exact ⟨_, by simp [busWrite, hd], .busError hs hd⟩
      | true =>
        obtain ⟨t, ht, he⟩ := writeWindow_effect p.busAddr p.busWdata s
        exact ⟨_, by simp [busWrite, hd, ht], .write t hs hw hd he⟩

/-- A cycle is a reset, or a host access and then, when `us_tick` is 1, a serializer step. -/
theorem cycle_effect (p : Pins) (s : State) :
    (p.rstN = false ∧ cycle p s = .next (resetCycle s)) ∨
      (p.rstN = true ∧ ∃ t, AccessEffect p s t ∧ cycle p s = if p.usTick then tick t else .next t) := by
  cases hr : p.rstN with
  | false => exact .inl ⟨rfl, by simp [cycle, hr]⟩
  | true =>
    obtain ⟨t, ht, he⟩ := hostAccess_effect p s
    exact .inr ⟨rfl, t, he, by simp [cycle, hr, ht]⟩

/-- The step is one cycle, with the next pins of the schedule. -/
theorem step_nil (h : s.inputs = []) : step s = cycle idlePins s := by
  unfold step; rw [h]

theorem step_cons {p : Pins} {rest : List Pins} (h : s.inputs = p :: rest) :
    step s = cycle p { s with inputs := rest } := by
  unfold step; rw [h]

/-- A serializer step that goes on is one of these. -/
theorem tick_next (h : tick s = .next t) :
    (s.status.sbusy = false ∧ t = s) ∨
      (s.status.sbusy = true ∧ s.ser.rem ≠ 1#16 ∧ t = countDown (s.ser.rem - 1#16) s) ∨
      (s.status.sbusy = true ∧ s.ser.rem = 1#16 ∧ s.ser.idx.toNat + 1 = s.res.runcnt.toNat ∧ t = finishFrame s) ∨
      (s.status.sbusy = true ∧ s.ser.rem = 1#16 ∧ s.ser.idx.toNat + 1 ≠ s.res.runcnt.toNat ∧
        ∃ us, s.res.dur[(s.ser.idx + 1#5).toNat]? = some us ∧ t = enterEntry (s.ser.idx + 1#5) us s) := by
  have hone : s.ser.rem - 1#16 = 0#16 ↔ s.ser.rem = 1#16 := by
    constructor <;> intro h <;> bv_omega
  have he := tick_effect s
  rw [h] at he
  cases he with
  | idle hb => exact .inl ⟨hb, rfl⟩
  | counted hb hr => exact .inr (.inl ⟨hb, fun hc => hr (hone.2 hc), rfl⟩)
  | finished hb hr hi => exact .inr (.inr (.inl ⟨hb, hone.1 hr, hi, rfl⟩))
  | entered us hb hr hi hd => exact .inr (.inr (.inr ⟨hb, hone.1 hr, hi, us, hd, rfl⟩))

/-- An offset that names a register is that register's offset. -/
theorem regAt_eq_some (off : Offset) (r : Reg) (h : regAt off = some r) : off = regOffset r := by
  have hall : ∀ off : Offset, (regAt off).all (fun r => off == regOffset r) = true := by decide +kernel
  simpa [h] using hall off

/-- Two states that agree on the register at an offset read the same there. -/
theorem readWindow_congr {off : Offset} (h : ∀ r, regAt off = some r → regWord t r = regWord s r) :
    readWindow t off = readWindow s off := by
  unfold readWindow
  cases hr : regAt off with
  | none => rfl
  | some r => exact h r hr

/-- The register's offset reads its word. -/
@[simp] theorem readWindow_regOffset (s : State) (r : Reg) : readWindow s (regOffset r) = regWord s r := by
  simp [readWindow]

/-- The check of an access in numbers (20_memory.md R54). -/
theorem accessIsDefined_eq : ∀ (size : BitVec 2) (off : Offset),
    accessIsDefined size off = decide (size = 2#2 ∧ off.toNat % 4 = 0) := by
  decide +kernel

/-- A write access that R54 defines is a write of its data at its offset. -/
theorem writes_of_access {p : Pins} (hr : p.rstN = true) (hs : p.busSel = true) (hw : p.busWe = true)
    (hd : accessIsDefined p.busSize p.busAddr = true) : Writes p p.busAddr p.busWdata := by
  rw [accessIsDefined_eq, decide_eq_true_eq] at hd
  exact ⟨hr, hs, hw, hd.1, rfl, rfl⟩

/-- INVCODE in numbers: some input is not in its set (30_encoding.md R72). -/
theorem hasNonMember_eq (t : Triple) : hasNonMember t = decide (¬ IsMember t) := by
  have hc : ∀ c : Nibble, isChannelCode c = decide (c ∈ [0x4#4, 0x5#4, 0x6#4, 0x7#4]) := by decide
  have ho : ∀ c : Nibble, isCommandCode c = decide (c ∈ [0x0#4, 0x7#4, 0x8#4, 0xF#4]) := by decide
  rw [hasNonMember, isMemberTriple, hc, ho, ho, decide_not, Bool.and_assoc, ← Bool.decide_and, ← Bool.decide_and]

end Sys2Proof.Machine
end

