-- ==== Sys2Proof/Laws/PerInstr.lean ====
section
/-! SUPPORT. Statements made per command: the decoder reads back what the encoder writes. -/

/-- A well-formed command's word decodes to it. -/
def Sys2Proof.Laws.RoundTrip.Statement (i : Sys2Proof.Instr) : Prop :=
  i.wf = true → Sys2Proof.decodeWord (Sys2Proof.encode i) = .ok i

theorem Sys2Proof.Laws.RoundTrip.nop : Sys2Proof.Laws.RoundTrip.Statement .nop := fun _ => rfl

theorem Sys2Proof.Laws.RoundTrip.encode : Sys2Proof.Laws.RoundTrip.Statement .encode := fun _ => rfl

theorem Sys2Proof.Laws.RoundTrip.send : Sys2Proof.Laws.RoundTrip.Statement .send := fun _ => rfl

theorem Sys2Proof.Laws.RoundTrip.abort : Sys2Proof.Laws.RoundTrip.Statement .abort := fun _ => rfl

theorem Sys2Proof.Laws.RoundTrip.clear : Sys2Proof.Laws.RoundTrip.Statement .clear := fun _ => rfl
end

