-- ==== Sys2Proof/Tests/Slice0.lean ====
section
/-! SUPPORT. Tests on the spec's own vectors (95_test_vectors.md, named by their ids), the smoke tests of the
well-formedness checks, and for each statement with hypotheses a witness that meets them. -/

namespace Sys2Proof.Machine

/-! ### Helpers -/

/-- The next state of an outcome; reset where it is none, which no test relies on. -/
def nextOf (o : Host.Outcome State Fault Refusal) : State :=
  match o with
  | .next t => t
  | .fault _ => State.reset
  | .refused _ => State.reset

/-- Reset with the triple (c, o, y) in IN. -/
def withIn (c o y : Nibble) : State := { State.reset with inp := ⟨c, o, y⟩ }

/-- "E5": IN = 0x5, then ENCODE. -/
def e5 : State := nextOf (exec .encode (withIn 5 0 0))

/-- "S5": E5, then SEND. -/
def s5 : State := nextOf (exec .send e5)

/-- S5 with the serializer in the last microsecond of its last entry. -/
def s5Last : State := { s5 with ser := ⟨11, false, 1⟩ }

/-- S5 with the serializer in the last microsecond of entry 0. -/
def s5First : State := { s5 with ser := ⟨0, true, 1⟩ }

/-- A state with one cycle in the schedule. -/
def oneCycle (p : Pins) (s : State) : State := { s with inputs := [p] }

/-! ### Well-formedness refuses what it should -/

theorem test_wf_mbz_refused : CmdFields.wf ⟨1, 1⟩ = false := by decide
theorem test_wf_op_refused : CmdFields.wf ⟨5, 0⟩ = false := by decide
theorem test_wf_legal : CmdFields.wf ⟨4, 0⟩ = true := by decide
theorem test_wf_byte_access_refused : accessIsDefined 0 0x0C = false := by decide
theorem test_wf_reserved_size_refused : accessIsDefined 3 0x0C = false := by decide
theorem test_wf_unaligned_refused : accessIsDefined 2 0x0D = false := by decide
theorem test_wf_aligned_word : accessIsDefined 2 0x0C = true := by decide
theorem test_wf_every_command (i : Instr) : i.wf = true := by cases i <;> rfl

/-! ### Decoding: the words of 30_encoding.md R75 written bit by bit -/

theorem test_decode_nop : decodeWord 0b00000000000000000000000000000000#32 = .ok .nop := by decide
theorem test_decode_encode : decodeWord 0b00000000000000000000000000000001#32 = .ok .encode := by decide
theorem test_decode_send : decodeWord 0b00000000000000000000000000000010#32 = .ok .send := by decide
theorem test_decode_abort : decodeWord 0b00000000000000000000000000000011#32 = .ok .abort := by decide
theorem test_decode_clear : decodeWord 0b00000000000000000000000000000100#32 = .ok .clear := by decide
theorem test_decode_mbz_rejected : decodeWord 0x00000011#32 = .error .mbzNotZero := by decide
theorem test_decode_op_rejected : decodeWord 0x00000005#32 = .error .opNotAssigned := by decide
theorem test_decode_bytes_little_endian : decodeBytes [2, 0, 0, 0, 9] = .ok (.send, [9]) := by decide
theorem test_decode_bytes_truncated : decodeBytes [2, 0, 0] = .error .truncated := by decide
theorem test_decode_table_word : decodeTableWord 32 4 = some .clear := by decide
theorem test_decode_table_word_illegal : decodeTableWord 32 0x80000001 = none := by decide
theorem test_table_rows_disjoint :
    cmdTable.Pairwise (fun a b => a.pattern &&& a.mask &&& b.mask ≠ b.pattern &&& a.mask &&& b.mask) := by decide

/-! ### The datapath (V10 to V30) -/

theorem test_check_digit_v11 : checkDigit (maskedSum 0 0 0) = 16 := by decide
theorem test_check_digit_v14 : checkDigit (maskedSum 0xF 0xF 0xF) = 3 := by decide
theorem test_byte2_truncated_v22 : assembleByte2 0xF 16 = 0x00 := by decide
theorem test_byte2_overflow_v23 : assembleByte2 0x9 16 = 0xA0 := by decide
theorem test_rev8_v26_9 : rev8 0x12 = 0x48 := by decide
theorem test_rev8_v26_6 : rev8 0x0B = 0xD0 := by decide
theorem test_frame_v27_7 :
    frame 0x7F (oddParity 0x7F) = [false, false, true, true, true, true, true, true, true, false, true] := by decide
theorem test_lut_v29_11 : lut 11 = 2288 := by decide
theorem test_runs_v28_2 : runs (messageOf 0 0 0) = [9, 3, 5, 1, 4, 1] := by decide
theorem test_members_ch3 : isMemberTriple ⟨7, 0xF, 8⟩ = true := by decide
theorem test_nonmember_channel_3 : isMemberTriple ⟨3, 0, 0⟩ = false := by decide

/-! ### The commands (V30 to V69) -/

theorem test_nop_v50 : nextOf (exec .nop s5) = s5 := by decide
theorem test_encode_v30 :
    let t := nextOf (exec .encode State.reset)
    readWindow t 0x0C = 0x00000065 ∧ readWindow t 0x10 = 0x00000010 ∧ readWindow t 0x14 = 0x08001000 ∧
      readWindow t 0x18 = 0x00000001 ∧ readWindow t 0x1C = 0x00003821 ∧ readWindow t 0x20 = 0x00000006 ∧
      readWindow t 0x40 = 0x00000750 ∧ readWindow t 0x54 = 0x000001A0 ∧ readWindow t 0x58 = 0 := by decide
theorem test_encode_strict_v55 :
    readWindow (nextOf (exec .encode { withIn 3 0 0 with ctrl := ⟨true, false, false, false⟩ })) 0x0C = 0x410 := by decide
theorem test_send_v53 : readWindow s5 0x0C = 0x00000007 ∧ readWindow s5 0x24 = 0x04100100 ∧ irMark s5 = true := by decide
theorem test_send_not_valid_v54 : readWindow (nextOf (exec .send State.reset)) 0x0C = 0x00000310 := by decide
theorem test_abort_v60 :
    readWindow (nextOf (exec .abort s5)) 0x0C = 0x00000005 ∧ readWindow (nextOf (exec .abort s5)) 0x24 = 0 := by decide
theorem test_abort_idle_v61 : nextOf (exec .abort State.reset) = State.reset := by decide
theorem test_clear_v62 :
    readWindow (nextOf (exec .clear e5)) 0x0C = 0x00000004 ∧ readWindow (nextOf (exec .clear e5)) 0x6C = 0 := by decide
theorem test_clear_busy_v59 : readWindow (nextOf (exec .clear s5)) 0x0C = 0x00000217 := by decide
theorem test_illegal_before_busy_v65 : readWindow (nextOf (runCommandWord 5 s5)) 0x0C = 0x00000117 := by decide

/-! ### Events, bus and serializer (V70 to V107) -/

theorem test_ack_v72 :
    readWindow (acknowledge 0xFFFFFFFF (nextOf (exec .encode State.reset))) 0x0C = 0x00000061 := by decide
theorem test_irq_v77 : irq e5 = false ∧ irq (writeCtrl 0x2 e5) = true := by decide
theorem test_bus_error_v80 :
    (busRead 2 0x0D e5).busErr = true ∧ (busRead 2 0x0D e5).busRdata = 0 := by decide
theorem test_read_v89 : (busRead 2 0x6C e5).busRdata = 0x000001A0 ∧ (busRead 2 0x9C e5).busRdata = 0 := by decide
theorem test_in_write_v86 : readWindow (writeIn 0xFFFFFFFF State.reset) 0x04 = 0x00000FFF := by decide
theorem test_ctrl_write_v87 : readWindow (writeCtrl 0xFFFFFFFF State.reset) 0x00 = 0x0000000F := by decide
theorem test_tick_v100_1 : readWindow (nextOf (tick s5)) 0x24 = 0x040F0100 := by decide
theorem test_tick_v100_1040 : readWindow (nextOf (tick s5First)) 0x24 = 0x00D00001 := by decide
theorem test_tick_v100_4992 :
    readWindow (nextOf (tick s5Last)) 0x0C = 0x0000000D ∧ readWindow (nextOf (tick s5Last)) 0x24 = 0 := by decide
theorem test_send_in_a_tick_cycle_v102 :
    readWindow (nextOf (cycle { writePins 0x08 2 with usTick := true } e5)) 0x24 = 0x040F0100 := by decide
theorem test_abort_in_a_tick_cycle_v103 :
    readWindow (nextOf (cycle { writePins 0x08 3 with usTick := true } s5)) 0x0C = 0x00000005 := by decide
theorem test_set_wins_v104 :
    readWindow (nextOf (cycle { writePins 0x0C 8 with usTick := true } s5Last)) 0x0C = 0x0000000D := by decide
theorem test_reset_cycle_v106 :
    readWindow (nextOf (cycle { resetPins with usTick := true } s5)) 0x0C = 0 := by decide
theorem test_step_runs_the_fetched_word :
    readWindow (nextOf (step (State.reset.withFetchWord 32 1))) 0x0C = 0x00000065 := by decide
theorem test_setin_expands : expandPseudo (.setin 6 7 0xF) = .wr 0x04 0x00000F76 := by decide

/-! ### Witnesses: states and operands that meet the statements' hypotheses -/

theorem inv_e5 : Inv e5 := by
  refine ⟨?_, by unfold serializerOk; decide, by unfold errorOk; decide⟩
  unfold resultsOk
  rw [if_pos (by decide)]
  exact ⟨⟨5, 0, 0⟩, by decide, by decide, by decide⟩

theorem inv_s5 : Inv s5 := by
  refine ⟨?_, by unfold serializerOk; decide, by unfold errorOk; decide⟩
  unfold resultsOk
  rw [if_pos (by decide)]
  exact ⟨⟨5, 0, 0⟩, by decide, by decide, by decide⟩

theorem wit_ResetCycleWinsFromAnyState :
    { writePins 0x08 1 with rstN := false, usTick := true }.rstN = false := by decide

theorem wit_ReadAnswersTheRegister :
    Reads (readPins 0x0C) ∧ (readPins 0x0C).usTick = false ∧
      ((readPins 0x0C).busSize = 2 ∧ (readPins 0x0C).busAddr.toNat % 4 = 0) ∧
      Reads (readPins 0x0D) ∧ (readPins 0x0D).busAddr.toNat % 4 ≠ 0 ∧
      Reads { readPins 0xFC with busSize := 1 } := by
  unfold Reads; decide

theorem wit_UndefinedAccessIsABusError :
    (writePins 0x06 1).rstN = true ∧ (writePins 0x06 1).busSel = true ∧ (writePins 0x06 1).usTick = false ∧
      (writePins 0x06 1).busAddr.toNat % 4 ≠ 0 ∧ { writePins 0x08 1 with busSize := 0 }.busSize ≠ 2 := by decide

theorem wit_writes (off : Offset) (v : Word) : Writes (writePins off v) off v ∧ (writePins off v).usTick = false :=
  ⟨⟨rfl, rfl, rfl, rfl, rfl, rfl⟩, rfl⟩

theorem wit_CtrlAndInWritesReadBack :
    Writes (writePins 0x00 0xFFFFFFFF) 0x00 0xFFFFFFFF ∧ Writes (writePins 0x04 0xFFFFFFFF) 0x04 0xFFFFFFFF :=
  ⟨(wit_writes _ _).1, (wit_writes _ _).1⟩

theorem wit_StatusWriteClearsAcknowledgedEvents : Writes (writePins 0x0C 0x1C) 0x0C 0x1C := (wit_writes _ _).1

theorem wit_ReadOnlyAndReservedWritesAreIgnored :
    Writes (writePins 0x10 1) 0x10 1 ∧ (0x10 : Offset).toNat % 4 = 0 ∧
      Writes (writePins 0xFC 1) 0xFC 1 ∧ (0xFC : Offset).toNat % 4 = 0 :=
  ⟨(wit_writes _ _).1, by decide, (wit_writes _ _).1, by decide⟩

theorem wit_AccessesOtherThanCommandsAreIdempotent :
    Reads (readPins 0x24) ∧ cycle (readPins 0x24) s5 = .next (nextOf (cycle (readPins 0x24) s5)) ∧
      cycle (writePins 0x0C 4) e5 = .next (nextOf (cycle (writePins 0x0C 4) e5)) :=
  ⟨⟨rfl, rfl, rfl⟩, rfl, rfl⟩

theorem wit_IdleMachineWaitsForTheHost :
    tickPins.rstN = true ∧ tickPins.busSel = false ∧ e5.status.sbusy = false := by decide

theorem wit_StepRunsTheDecodedCommand :
    (oneCycle (writePins 0x08 2) e5).inputs = writePins 0x08 2 :: [] ∧ Writes (writePins 0x08 2) 0x08 2 ∧
      decodeWord 2 = .ok .send ∧ exec .send { oneCycle (writePins 0x08 2) e5 with inputs := [] } = .next s5 :=
  ⟨rfl, (wit_writes _ _).1, by decide, rfl⟩

theorem wit_IllegalWordRaisesIllegalCmd :
    Writes (writePins 0x08 5) 0x08 5 ∧ 5 ≤ (5 : Word).toNat ∧ Writes (writePins 0x08 0xFFFFFFFF) 0x08 0xFFFFFFFF :=
  ⟨(wit_writes _ _).1, by decide, (wit_writes _ _).1⟩

theorem wit_FirstApplicableErrorIsReported :
    firstError 5 s5 = some 1 ∧ firstError 1 s5 = some 2 ∧ firstError 2 State.reset = some 3 ∧
      firstError 1 { withIn 3 0 0 with ctrl := ⟨true, false, false, false⟩ } = some 4 ∧ firstError 4 e5 = none := by
  decide

theorem wit_HeldErrorDoesNotSteerCommands : AgreeButError e5 (withError 2 e5) := rfl

theorem wit_EncodeFollowsItsRule :
    s5.status.sbusy = true ∧
      ((withIn 3 0 0).status.sbusy = false ∧ ¬ IsMember (withIn 3 0 0).inp ∧ (withIn 3 0 0).ctrl.strict = false) ∧
      IsMember (withIn 5 0 0).inp := by decide

theorem wit_SendFollowsItsRule :
    s5.status.sbusy = true ∧ (State.reset.status.sbusy = false ∧ State.reset.status.valid = false) ∧
      (e5.status.sbusy = false ∧ e5.status.valid = true) ∧ Inv s5 :=
  ⟨by decide, by decide, by decide, inv_s5⟩

theorem wit_AbortFollowsItsRule : s5.status.sbusy = true ∧ e5.status.sbusy = false := by decide

theorem wit_ClearFollowsItsRule : s5.status.sbusy = true ∧ e5.status.sbusy = false := by decide

theorem wit_CommandsLeaveTheRestUnchanged :
    exec .nop s5 = .next s5 ∧ exec .encode (withIn 5 0 0) = .next e5 ∧ exec .send e5 = .next s5 ∧
      exec .abort s5 = .next (nextOf (exec .abort s5)) ∧ exec .clear e5 = .next (nextOf (exec .clear e5)) ∧
      firstError (encode .send) e5 = none :=
  ⟨rfl, rfl, rfl, rfl, rfl, by decide⟩

theorem wit_BytePairIsAssembled :
    (encodeTriple ⟨0, 0, 0xF⟩).check.toNat ≤ 15 ∧ (encodeTriple ⟨0, 0, 0⟩).check.toNat = 16 := by decide

theorem wit_MembersNeverOverflow : IsMember ⟨7, 0xF, 0xF⟩ ∧ IsMember ⟨4, 0, 0⟩ := by decide

theorem wit_DurationsStandForTheMessage :
    (messageOf 5 0 0).length = 23 ∧ (messageOf 5 0 0).head? = some false := by decide

theorem wit_EncodeDependsOnTheTripleAlone :
    (withIn 5 0 0).inp = e5.inp ∧ (withIn 5 0 0).status.sbusy = false ∧ e5.status.sbusy = false ∧
      (withIn 5 0 0).ctrl.strict = false ∧ IsMember e5.inp := by decide

theorem wit_TickFollowsItsRule :
    (s5.status.sbusy = true ∧ 2 ≤ s5.ser.rem.toNat) ∧
      (s5Last.status.sbusy = true ∧ s5Last.ser.rem = 1 ∧ s5Last.ser.idx.toNat + 1 = s5Last.res.runcnt.toNat) ∧
      (s5First.ser.rem = 1 ∧ s5First.ser.idx.toNat + 1 ≠ s5First.res.runcnt.toNat ∧ s5First.ser.idx.toNat + 1 < 23) ∧
      Inv s5 ∧ 1039 < s5.ser.rem.toNat :=
  ⟨by decide, by decide, by decide, inv_s5, by decide⟩

theorem wit_TickStopsOnlyOutsideTheTable :
    tick { s5 with ser := ⟨22, true, 1⟩ } = .fault .serializerIndexOutsideTable ∧
      tick { s5 with ser := ⟨30, true, 1⟩ } = .fault .serializerIndexOutsideTable ∧
      tick { s5 with ser := ⟨21, true, 1⟩ } = .next { s5 with ser := ⟨22, false, 0⟩ } :=
  ⟨rfl, rfl, rfl⟩

theorem wit_sendable : Inv e5 ∧ e5.status.valid = true ∧ e5.status.sbusy = false :=
  ⟨inv_e5, by decide, by decide⟩

theorem wit_AirTimeIsExact :
    (Inv e5 ∧ e5.status.valid = true ∧ e5.status.sbusy = false) ∧ LeavesSendRunning tickPins ∧
      LeavesSendRunning (writePins 0x08 1) ∧ tickCount [tickPins, writePins 0x08 1] = 1 ∧
      (∀ n, tickCount (List.replicate n tickPins) = n) := by
  refine ⟨wit_sendable, ⟨rfl, fun h => by simp [Writes, tickPins, idlePins] at h⟩,
    ⟨rfl, fun h => by simp [Writes, writePins, idlePins] at h⟩, by decide, fun n => ?_⟩
  simp [tickCount, tickPins]

theorem wit_EnvelopeIsTheMessage :
    (Inv e5 ∧ e5.status.valid = true ∧ e5.status.sbusy = false) ∧ tickCount (List.replicate 4783 tickPins) = 4783 ∧
      tickCount (List.replicate 4784 tickPins) = 4784 :=
  ⟨wit_sendable, wit_AirTimeIsExact.2.2.2.2 _, wit_AirTimeIsExact.2.2.2.2 _⟩

theorem wit_FrameCanBeSentAgain : Inv e5 ∧ e5.status.valid = true ∧ e5.status.sbusy = false := wit_sendable

theorem wit_SendWaitsForTicks :
    s5.status.sbusy = true ∧ ∀ p ∈ [idlePins, writePins 0x08 1], LeavesSendRunning p ∧ p.usTick = false := by
  refine ⟨by decide, fun p hp => ?_⟩
  simp only [List.mem_cons, List.not_mem_nil, or_false] at hp
  rcases hp with rfl | rfl
  · exact ⟨⟨rfl, fun h => by simp [Writes, idlePins] at h⟩, rfl⟩
  · exact ⟨⟨rfl, fun h => by simp [Writes, writePins, idlePins] at h⟩, rfl⟩

theorem wit_HostAccessComesBeforeTheTick :
    { writePins 0x08 2 with usTick := true }.rstN = true ∧
      Writes { writePins 0x08 2 with usTick := true } 0x08 2 ∧ Inv e5 ∧
      Writes { writePins 0x08 3 with usTick := true } 0x08 3 ∧ s5.status.sbusy = true ∧
      Writes { writePins 0x0C 8 with usTick := true } 0x0C 8 ∧ s5Last.ser.rem = 1 ∧
      s5Last.ser.idx.toNat + 1 = s5Last.res.runcnt.toNat :=
  ⟨rfl, ⟨rfl, rfl, rfl, rfl, rfl, rfl⟩, inv_e5, ⟨rfl, rfl, rfl, rfl, rfl, rfl⟩, by decide,
    ⟨rfl, rfl, rfl, rfl, rfl, rfl⟩, by decide, by decide⟩

/-- S5 in its last microsecond, with a tick scheduled, meets the invariant. -/
theorem inv_s5Last : Inv (oneCycle tickPins s5Last) := by
  refine ⟨?_, by unfold serializerOk; decide, by unfold errorOk; decide⟩
  unfold resultsOk
  rw [if_pos (by decide)]
  exact ⟨⟨5, 0, 0⟩, by decide, by decide, by decide⟩

theorem wit_StatusBitsChangeOnlyByTheirSources :
    (oneCycle tickPins s5Last).inputs.headD idlePins = tickPins ∧ tickPins.rstN = true ∧
      step (oneCycle tickPins s5Last) = .next (nextOf (step (oneCycle tickPins s5Last))) ∧
      Inv (oneCycle tickPins s5Last) ∧ (oneCycle tickPins s5Last).status.sdone = false ∧
      (oneCycle tickPins s5Last).status.sbusy = true ∧
      (nextOf (step (oneCycle tickPins s5Last))).status.sdone = true ∧
      (nextOf (step (oneCycle tickPins s5Last))).status.sbusy = false ∧
      (nextOf (step (oneCycle { idlePins with rstN := false } e5))).status.valid = false :=
  ⟨rfl, rfl, rfl, inv_s5Last, by decide, by decide, by decide, by decide, by decide⟩

theorem wit_status_events_rise_and_fall :
    (nextOf (step (oneCycle (writePins 0x08 1) (withIn 5 0 0)))).status.valid = true ∧
      (nextOf (step (oneCycle (writePins 0x08 4) e5))).status.valid = false ∧
      (nextOf (step (oneCycle (writePins 0x08 2) e5))).status.sbusy = true ∧
      (nextOf (step (oneCycle (writePins 0x08 3) s5))).status.sbusy = false ∧
      (nextOf (step (oneCycle (writePins 0x0C 4) e5))).status.edone = false ∧
      (nextOf (step (oneCycle (writePins 0x0C 8) (nextOf (tick s5Last))))).status.sdone = false ∧
      (nextOf (step (oneCycle (writePins 0x08 1) s5))).status.err = true ∧
      (nextOf (step (oneCycle (writePins 0x0C 16) (withError 3 e5)))).status.err = false := by decide

/-- ERRCODE changes while ERR stays 1, and CKOVF and INVCODE go both ways. -/
theorem wit_status_codes_rise_and_fall :
    (withError 3 e5).status.err = true ∧
      (nextOf (step (oneCycle (writePins 0x08 5) (withError 3 e5)))).status.errcode = 1 ∧
      (nextOf (step (oneCycle (writePins 0x08 1) State.reset))).status.ckovf = true ∧
      (nextOf (step (oneCycle (writePins 0x08 4) (nextOf (exec .encode State.reset))))).status.ckovf = false ∧
      (nextOf (step (oneCycle (writePins 0x08 1) { e5 with inp := ⟨1, 1, 1⟩ }))).status.invcode = true ∧
      (nextOf (step (oneCycle (writePins 0x08 1)
        { nextOf (exec .encode State.reset) with inp := ⟨5, 0, 0⟩ }))).status.ckovf = false ∧
      (nextOf (step (oneCycle (writePins 0x08 1)
        { nextOf (exec .encode (withIn 1 1 1)) with inp := ⟨5, 0, 0⟩ }))).status.invcode = false := by decide

theorem wit_RegistersChangeOnlyByTheirWriters :
    (oneCycle (writePins 0x08 1) (withIn 5 0 0)).inputs = writePins 0x08 1 :: [] ∧
      step (oneCycle (writePins 0x08 1) (withIn 5 0 0)) =
        .next (nextOf (step (oneCycle (writePins 0x08 1) (withIn 5 0 0)))) ∧
      (nextOf (step (oneCycle (writePins 0x08 1) (withIn 5 0 0)))).res ≠ (withIn 5 0 0).res :=
  ⟨rfl, rfl, by decide⟩

theorem wit_StepKeepsTheInvariant :
    Inv s5 ∧ step s5 = .next (nextOf (step s5)) ∧ Inv e5 ∧
      step (e5.withFetchWord 32 2) = .next (nextOf (step (e5.withFetchWord 32 2))) :=
  ⟨inv_s5, rfl, inv_e5, rfl⟩

theorem wit_NoScheduleStopsTheMachine : Inv e5 := inv_e5

theorem wit_PollEndsOnAMatchingRead :
    (runPoll 0x0C 0x2 0x0 [5] e5).isSome = true ∧
      runPoll 0x0C 0x2 0x0 [5] e5 = some (.next (nextOf (cycle (readPins 0x0C) e5))) ∧
      (runPoll 0x0C 0x2 0x0 [0] s5).isSome = false :=
  ⟨by decide, rfl, by decide⟩

end Sys2Proof.Machine
end

section
/-! SUPPORT. What one cycle out of reset does to the registers, in the terms the statements use: the host's part by the
write the pins carry and the error that applies, then the serializer's part. -/

namespace Sys2Proof.Machine

variable {p : Pins} {s t u r : State}

/-! ### The decoder and the first error -/

/-- Every row of the table matches one word only, its pattern (30_encoding.md R75). -/
theorem eq_encode_of_decodeWord {w : Word} {i : Instr} (h : decodeWord w = .ok i) : w = encode i := by
  unfold decodeWord at h
  split at h
  · next row hrow =>
    have hmatch : w &&& row.mask = row.pattern := by simpa [rowMatches] using List.find?_some hrow
    have hmem := List.mem_of_find?_eq_some hrow
    simp only [cmdTable, List.mem_cons, List.not_mem_nil, or_false] at hmem
    have hones : w &&& 0xFFFFFFFF#32 = w := BitVec.and_allOnes
    obtain rfl | rfl | rfl | rfl | rfl := hmem <;> cases h <;> exact hones.symm.trans hmatch
  · cases h

/-- The words 0 to 4 decode, so a rejected word is 5 or more (R76). -/
theorem lt_toNat_of_decodeWord_error {w : Word} {e : DecodeReject} (h : decodeWord w = .error e) : 4 < w.toNat := by
  by_contra hle
  have hw : w = 0#32 ∨ w = 1#32 ∨ w = 2#32 ∨ w = 3#32 ∨ w = 4#32 := by bv_omega
  obtain rfl | rfl | rfl | rfl | rfl := hw <;> cases h

theorem hasNonMember_iff {c : Triple} : hasNonMember c = true ↔ ¬ IsMember c := by
  rw [hasNonMember_eq, decide_eq_true_eq]

theorem hasNonMember_eq_false_iff {c : Triple} : hasNonMember c = false ↔ IsMember c := by
  rw [hasNonMember_eq, decide_eq_false_iff_not, not_not]

/-- The first error in terms of the flag the model computes, which keeps `simp` from listing the members. -/
theorem firstError_eq (w : Word) (s : State) :
    firstError w s =
      if 4 < w.toNat then some 1#4
      else if s.status.sbusy = true ∧ (w = 1#32 ∨ w = 2#32 ∨ w = 4#32) then some 2#4
      else if s.status.valid = false ∧ w = 2#32 then some 3#4
      else if s.ctrl.strict = true ∧ hasNonMember s.inp = true ∧ w = 1#32 then some 4#4
      else none := by
  simp only [firstError, hasNonMember_iff]

theorem firstError_encode_eq_none :
    firstError 1#32 s = none ↔
      s.status.sbusy = false ∧ (s.ctrl.strict = false ∨ hasNonMember s.inp = false) := by
  rw [firstError_eq]
  cases s.status.sbusy <;> cases s.ctrl.strict <;> simp

theorem firstError_send_eq_none :
    firstError 2#32 s = none ↔ s.status.sbusy = false ∧ s.status.valid = true := by
  rw [firstError_eq]
  cases s.status.sbusy <;> cases s.status.valid <;> simp

theorem firstError_clear_eq_none : firstError 4#32 s = none ↔ s.status.sbusy = false := by
  rw [firstError_eq]
  cases s.status.sbusy <;> simp

/-! ### The host's part of a cycle -/

/-- What the host's access does to the registers, each change by the write that makes it. -/
inductive HostEffect (p : Pins) (s : State) : State → Prop where
  | kept : HostEffect p s s
  | ctrlWritten (v : Word) (hw : Writes p 0x00#8 v) : HostEffect p s (writeCtrl v s)
  | inWritten (v : Word) (hw : Writes p 0x04#8 v) : HostEffect p s (writeIn v s)
  | acknowledged (v : Word) (hw : Writes p 0x0C#8 v) : HostEffect p s (acknowledge v s)
  | failed (w : Word) (e : ErrKind) (hw : Writes p 0x08#8 w) (he : firstError w s = some (errCodeOf e)) :
      HostEffect p s (raiseError e s)
  | encoded (hw : Writes p 0x08#8 1#32) (he : firstError 1#32 s = none) :
      HostEffect p s (storeResults (encodeTriple s.inp) (checkOverflows s.inp) (hasNonMember s.inp) s)
  | started (hw : Writes p 0x08#8 2#32) (he : firstError 2#32 s = none) : HostEffect p s (startSerializer s)
  | stopped (hw : Writes p 0x08#8 3#32) (hb : s.status.sbusy = true) : HostEffect p s (stopSerializer s)
  | cleared (hw : Writes p 0x08#8 4#32) (he : firstError 4#32 s = none) : HostEffect p s (clearResults s)

theorem hostEffect_of_command {i : Instr} (hw : Writes p 0x08#8 (encode i)) (h : CommandEffect s i t) :
    HostEffect p s t := by
  cases h with
  | unchanged => exact .kept
  | busy _ hi hb =>
    refine .failed _ _ hw ?_
    obtain rfl | rfl | rfl := hi <;> simp [firstError_eq, encode, errCodeOf, hb]
  | notValid hb hv => exact .failed _ _ hw (by simp [firstError_eq, encode, errCodeOf, hb, hv])
  | invalidCode hb hc hm => exact .failed _ _ hw (by simp [firstError_eq, encode, errCodeOf, hb, hc, hm])
  | encoded hb hc => exact .encoded hw (firstError_encode_eq_none.2 ⟨hb, hc⟩)
  | started hb hv => exact .started hw (firstError_send_eq_none.2 ⟨hb, hv⟩)
  | stopped hb => exact .stopped hw hb
  | cleared hb => exact .cleared hw (firstError_clear_eq_none.2 hb)

theorem hostEffect_of_write (hw : Writes p p.busAddr p.busWdata) (h : WriteEffect s p.busAddr p.busWdata t) :
    HostEffect p s t := by
  cases h with
  | ctrl h => exact .ctrlWritten _ (h ▸ hw)
  | inp h => exact .inWritten _ (h ▸ hw)
  | status h => exact .acknowledged _ (h ▸ hw)
  | illegal h e hd =>
    exact .failed _ .illegalCmd (h ▸ hw) (by simp [firstError_eq, errCodeOf, lt_toNat_of_decodeWord_error hd])
  | command h i _ hd he =>
    rw [h, eq_encode_of_decodeWord hd] at hw
    exact hostEffect_of_command hw he
  | ignored => exact .kept

/-- The state with other response lines: no register differs. -/
def withResponse (e : Bool) (d : Word) (n : Nat) (s : State) : State :=
  { s with busErr := e, busRdata := d, freeCount := n }

/-- An access is its effect on the registers and a response. -/
theorem hostEffect_of_access (hr : p.rstN = true) (h : AccessEffect p s t) :
    ∃ u e d n, HostEffect p s u ∧ t = withResponse e d n u := by
  cases h with
  | none => exact ⟨s, _, _, _, .kept, rfl⟩
  | busError => exact ⟨s, _, _, _, .kept, rfl⟩
  | read => exact ⟨s, _, _, _, .kept, rfl⟩
  | write u hs hw hd he =>
    exact ⟨u, _, _, _, hostEffect_of_write (writes_of_access hr hs hw hd) he, rfl⟩

/-! ### The serializer's part of a cycle -/

/-- What the serializer does in a cycle after the host's access. -/
inductive SerializerEffect (p : Pins) (s : State) : State → Prop where
  | kept : SerializerEffect p s s
  | counted (ht : p.usTick = true) (hb : s.status.sbusy = true) (hr : s.ser.rem ≠ 1#16) :
      SerializerEffect p s (countDown (s.ser.rem - 1#16) s)
  | finished (ht : p.usTick = true) (hb : s.status.sbusy = true) (hr : s.ser.rem = 1#16)
      (hi : s.ser.idx.toNat + 1 = s.res.runcnt.toNat) : SerializerEffect p s (finishFrame s)
  | entered (us : Micros) (ht : p.usTick = true) (hb : s.status.sbusy = true) (hr : s.ser.rem = 1#16)
      (hi : s.ser.idx.toNat + 1 ≠ s.res.runcnt.toNat) (hd : s.res.dur[(s.ser.idx + 1#5).toNat]? = some us) :
      SerializerEffect p s (enterEntry (s.ser.idx + 1#5) us s)

/-- A tick reads and changes no response line. -/
theorem serializerEffect_of_tick {e : Bool} {d : Word} {n : Nat} (ht : p.usTick = true)
    (h : tick (withResponse e d n s) = .next t) : ∃ u, SerializerEffect p s u ∧ t = withResponse e d n u := by
  obtain ⟨-, rfl⟩ | ⟨hb, hr, rfl⟩ | ⟨hb, hr, hi, rfl⟩ | ⟨hb, hr, hi, us, hd, rfl⟩ := tick_next h
  · exact ⟨s, .kept, rfl⟩
  · exact ⟨_, .counted ht hb hr, rfl⟩
  · exact ⟨_, .finished ht hb hr hi, rfl⟩
  · exact ⟨_, .entered us ht hb hr hi hd, rfl⟩

/-- A cycle out of reset is the host's part, then the serializer's, under some response lines
(70_reset_and_hazards.md R198). -/
theorem cycle_parts (hr : p.rstN = true) (h : cycle p s = .next t) :
    ∃ u r e d n, HostEffect p s u ∧ SerializerEffect p u r ∧ t = withResponse e d n r := by
  obtain ⟨hr', -⟩ | ⟨-, a, ha, hc⟩ := cycle_effect p s
  · simp [hr] at hr'
  obtain ⟨u, e, d, n, hu, rfl⟩ := hostEffect_of_access hr ha
  rw [hc] at h
  split at h
  · next ht =>
    obtain ⟨r, hs, rfl⟩ := serializerEffect_of_tick ht h
    exact ⟨u, r, e, d, n, hu, hs, rfl⟩
  · cases h
    exact ⟨u, u, e, d, n, hu, .kept, rfl⟩

theorem cycle_of_reset (hr : p.rstN = false) : cycle p s = .next (resetCycle s) := by
  simp [cycle, hr]

/-- The step is the cycle of the schedule's head, an idle one where the schedule is empty (logs 1 and 2). -/
theorem step_eq_cycle (s : State) :
    step s = cycle (s.inputs.headD idlePins) { s with inputs := s.inputs.tail } := by
  cases h : s.inputs with
  | nil => rw [step_nil h, List.headD_nil, List.tail_nil, ← h]
  | cons q rest => rw [step_cons h, List.headD_cons, List.tail_cons]

end Sys2Proof.Machine
end

section
/-! SUPPORT. What the invariant says part by part, and that every cycle keeps it. -/

namespace Sys2Proof.Machine

variable {p : Pins} {s t u r : State}

/-! ### The entries an ENCODE writes -/

theorem runs_pos (m : List Bool) : ∀ l ∈ runs m, 1 ≤ l := by
  cases m with
  | nil => simp [runs]
  | cons b m => exact runsFrom_pos b 1 (le_refl 1) m

theorem runs_ne_nil {m : List Bool} (h : m ≠ []) : runs m ≠ [] := by
  cases m with
  | nil => exact absurd rfl h
  | cons b m => exact runsFrom_ne_nil b 1 m

theorem messageOf_length (c o y : Nibble) : (messageOf c o y).length = 23 := rfl

/-- A message has 1 to 23 runs: none is empty and their lengths add up to 23 (40_encode_datapath.md R111). -/
theorem runs_messageOf_length (c o y : Nibble) :
    1 ≤ (runs (messageOf c o y)).length ∧ (runs (messageOf c o y)).length ≤ 23 := by
  have hsum := runs_sum (messageOf c o y)
  have hle := List.length_le_sum_of_one_le _ (runs_pos (messageOf c o y))
  have hne : runs (messageOf c o y) ≠ [] := runs_ne_nil (by simp [messageOf, message, frame])
  have hlen := messageOf_length c o y
  exact ⟨List.length_pos_iff.2 hne, by omega⟩

/-- The entry of a run is at least one bit long: 23 bits and the pause fit its 16 bits (R113). -/
theorem le_durationEntry {ls : List Nat} {i : Nat} (hpos : ∀ l ∈ ls, 1 ≤ l) (hsum : ls.sum ≤ 23)
    (hi : i < ls.length) : 208 ≤ (durationEntry ls i).toNat := by
  have hmem : ls[i] ∈ ls := List.getElem_mem hi
  have h1 : 1 ≤ ls[i] := hpos _ hmem
  have h23 : ls[i] ≤ 23 := (List.le_sum_of_mem hmem).trans hsum
  have hlut : (lut ls[i]).toNat = ls[i] * 208 := by
    rw [lut, Config.bitLength, BitVec.toNat_ofNat]
    omega
  unfold durationEntry
  rw [List.getD_eq_getElem _ _ hi]
  split
  · omega
  · rw [if_pos (by omega), BitVec.toNat_add_of_lt] <;> rw [hlut, Config.pause, BitVec.toNat_ofNat] <;> omega

theorem encodeTriple_runcnt_toNat (c : Triple) :
    (encodeTriple c).runcnt.toNat = (runs (messageOf c.ch c.orange c.yellow)).length := by
  obtain ⟨-, hle⟩ := runs_messageOf_length c.ch c.orange c.yellow
  change (runCount _).toNat = _
  rw [runCount, BitVec.toNat_ofNat]
  omega

theorem encodeTriple_dur (c : Triple) {i : Nat} (hi : i < 23) :
    (encodeTriple c).dur[i] = durationEntry (runs (messageOf c.ch c.orange c.yellow)) i := by
  simp [encodeTriple, durationTable]

theorem le_encodeTriple_dur (c : Triple) {i : Nat} (h23 : i < 23) (hi : i < (encodeTriple c).runcnt.toNat) :
    208 ≤ (encodeTriple c).dur[i].toNat := by
  rw [encodeTriple_runcnt_toNat] at hi
  rw [encodeTriple_dur c h23]
  refine le_durationEntry (runs_pos _) ?_ hi
  rw [runs_sum, messageOf_length]

/-! ### The parts of the invariant -/

theorem resultsOk_of_valid (h : s.status.valid = true) :
    resultsOk s ↔ ∃ c, s.res = encodeTriple c ∧ s.status.ckovf = checkOverflows c ∧
      s.status.invcode = hasNonMember c := by
  rw [resultsOk, if_pos h]

theorem resultsOk_of_not_valid (h : s.status.valid = false) :
    resultsOk s ↔ s.res = Results.zero ∧ s.status.ckovf = false ∧ s.status.invcode = false := by
  simp [resultsOk, h]

/-- The entry SERSTAT.IDX names is an entry of the table. -/
theorem dur_toList_getD (d : Vector Micros 23) {i : Nat} (h : i < 23) : d.toList.getD i 0 = d[i] := by
  rw [List.getD_eq_getElem _ _ (by simpa using h), Vector.getElem_toList]

theorem serializerOk_of_busy (h : s.status.sbusy = true) :
    serializerOk s ↔ s.status.valid = true ∧ s.ser.idx.toNat < s.res.runcnt.toNat ∧ 1 ≤ s.ser.rem.toNat ∧
      s.ser.rem.toNat ≤ (s.res.dur.toList.getD s.ser.idx.toNat 0).toNat ∧
      s.ser.level = decide (s.ser.idx.toNat % 2 = 0) := by
  rw [serializerOk, if_pos h]

theorem serializerOk_of_idle (h : s.status.sbusy = false) : serializerOk s ↔ s.ser = SerStat.zero := by
  simp [serializerOk, h]

/-- While idle only SERSTAT counts. -/
theorem serializerOk.idle_congr (h : serializerOk s) (hb : s.status.sbusy = false)
    (ht : t.status.sbusy = s.status.sbusy) (hser : t.ser = s.ser) : serializerOk t := by
  rw [serializerOk_of_idle (ht.trans hb), hser]
  exact (serializerOk_of_idle hb).1 h

theorem errorOk_of_err (h : s.status.err = true) :
    errorOk s ↔ 1 ≤ s.status.errcode.toNat ∧ s.status.errcode.toNat ≤ 4 := by
  rw [errorOk, if_pos h]

theorem errorOk_of_not_err (h : s.status.err = false) : errorOk s ↔ s.status.errcode = 0#4 := by
  simp [errorOk, h]

/-! ### What the invariant gives a send -/

theorem Inv.res_eq_encodeTriple (h : Inv s) (hv : s.status.valid = true) : ∃ c, s.res = encodeTriple c := by
  obtain ⟨c, hc, -⟩ := (resultsOk_of_valid hv).1 h.results
  exact ⟨c, hc⟩

theorem Inv.runcnt_pos (h : Inv s) (hv : s.status.valid = true) : 1 ≤ s.res.runcnt.toNat := by
  obtain ⟨c, hc⟩ := h.res_eq_encodeTriple hv
  rw [hc, encodeTriple_runcnt_toNat]
  exact (runs_messageOf_length c.ch c.orange c.yellow).1

theorem Inv.runcnt_le (h : Inv s) (hv : s.status.valid = true) : s.res.runcnt.toNat ≤ 23 := by
  obtain ⟨c, hc⟩ := h.res_eq_encodeTriple hv
  rw [hc, encodeTriple_runcnt_toNat]
  exact (runs_messageOf_length c.ch c.orange c.yellow).2

theorem Inv.le_dur (h : Inv s) (hv : s.status.valid = true) {i : Nat} (h23 : i < 23)
    (hi : i < s.res.runcnt.toNat) : 208 ≤ s.res.dur[i].toNat := by
  obtain ⟨c, hc⟩ := h.res_eq_encodeTriple hv
  simp only [hc] at hi ⊢
  exact le_encodeTriple_dur c h23 hi

/-! ### Every cycle keeps the invariant -/

theorem inv_reset : Inv State.reset where
  results := (resultsOk_of_not_valid rfl).2 ⟨rfl, rfl, rfl⟩
  serializer := (serializerOk_of_idle rfl).2 rfl
  error := (errorOk_of_not_err rfl).2 rfl

/-- The invariant speaks of STATUS, the results and SERSTAT alone. -/
theorem Inv.congr (h : Inv s) (hst : t.status = s.status) (hres : t.res = s.res) (hser : t.ser = s.ser) : Inv t := by
  constructor
  · simpa only [resultsOk, hst, hres] using h.results
  · simpa only [serializerOk, hst, hres, hser] using h.serializer
  · simpa only [errorOk, hst] using h.error

theorem errorOk_acknowledge (v : Word) (h : errorOk s) : errorOk (acknowledge v s) := by
  cases hv : v[4] with
  | true => exact (errorOk_of_not_err (by simp [hv])).2 (by simp [hv])
  | false => simpa [errorOk, hv] using h

theorem errorOk_raiseError (e : ErrKind) (s : State) : errorOk (raiseError e s) := by
  rw [errorOk_of_err rfl, raiseError_status_errcode]
  cases e <;> decide

/-- SEND starts at entry 0, which has its whole duration to go (41_serializer.md R131). -/
theorem Inv.serializerOk_startSerializer (h : Inv s) (hv : s.status.valid = true) :
    serializerOk (startSerializer s) := by
  have hpos := h.runcnt_pos hv
  have hdur := h.le_dur hv (i := 0) (by decide) hpos
  refine (serializerOk_of_busy rfl).2 ⟨hv, hpos, ?_, ?_, rfl⟩
  · simp only [startSerializer_ser]
    omega
  · exact (congrArg BitVec.toNat (dur_toList_getD s.res.dur (i := 0) (by decide))).ge

theorem Inv.hostEffect (h : Inv s) (hu : HostEffect p s u) : Inv u := by
  obtain ⟨hres, hser, herr⟩ := h
  cases hu with
  | kept => exact ⟨hres, hser, herr⟩
  | ctrlWritten => exact ⟨hres, hser, herr⟩
  | inWritten => exact ⟨hres, hser, herr⟩
  | acknowledged => exact ⟨hres, hser, errorOk_acknowledge _ herr⟩
  | failed => exact ⟨hres, hser, errorOk_raiseError _ s⟩
  | encoded _ he =>
    have hb := (firstError_encode_eq_none.1 he).1
    exact ⟨(resultsOk_of_valid rfl).2 ⟨_, rfl, rfl, rfl⟩, hser.idle_congr hb rfl rfl, herr⟩
  | started _ he =>
    have hv := (firstError_send_eq_none.1 he).2
    exact ⟨hres, Inv.serializerOk_startSerializer ⟨hres, hser, herr⟩ hv, herr⟩
  | stopped => exact ⟨hres, (serializerOk_of_idle rfl).2 rfl, herr⟩
  | cleared _ he =>
    have hb := firstError_clear_eq_none.1 he
    exact ⟨(resultsOk_of_not_valid rfl).2 ⟨rfl, rfl, rfl⟩, hser.idle_congr hb rfl rfl, herr⟩

/-- Short of its last microsecond an entry counts down. -/
theorem serializerOk_countDown (h : serializerOk s) (hb : s.status.sbusy = true) (hr : s.ser.rem ≠ 1#16) :
    serializerOk (countDown (s.ser.rem - 1#16) s) := by
  obtain ⟨hv, hi, hpos, hle, hlev⟩ := (serializerOk_of_busy hb).1 h
  have hrem : (s.ser.rem - 1#16).toNat = s.ser.rem.toNat - 1 ∧ 2 ≤ s.ser.rem.toNat := by bv_omega
  refine (serializerOk_of_busy (s := countDown (s.ser.rem - 1#16) s) hb).2 ⟨hv, hi, ?_, ?_, hlev⟩ <;>
    simp only [countDown_ser, countDown_res] <;> omega

/-- After an entry that is not the last comes the next, with the other level and its whole duration to go
(41_serializer.md R132, R133). -/
theorem Inv.serializerOk_enterEntry (h : Inv s) (hb : s.status.sbusy = true)
    (hi : s.ser.idx.toNat + 1 ≠ s.res.runcnt.toNat) {us : Micros}
    (hd : s.res.dur[(s.ser.idx + 1#5).toNat]? = some us) : serializerOk (enterEntry (s.ser.idx + 1#5) us s) := by
  obtain ⟨hv, hlt, -, -, hlev⟩ := (serializerOk_of_busy hb).1 h.serializer
  have hcnt := h.runcnt_le hv
  have hidx : (s.ser.idx + 1#5).toNat = s.ser.idx.toNat + 1 := by bv_omega
  obtain ⟨h23, rfl⟩ := Vector.getElem?_eq_some_iff.1 hd
  have hdur := h.le_dur hv h23 (by omega)
  refine (serializerOk_of_busy (s := enterEntry _ _ s) hb).2 ⟨hv, ?_, ?_, ?_, ?_⟩
  · simp only [enterEntry_ser, enterEntry_res]
    omega
  · simp only [enterEntry_ser]
    omega
  · exact (congrArg BitVec.toNat (dur_toList_getD s.res.dur h23)).ge
  · simp only [enterEntry_ser, hlev, hidx, ← decide_not, decide_eq_decide]
    omega

theorem Inv.serializerEffect (h : Inv s) (hr : SerializerEffect p s r) : Inv r := by
  cases hr with
  | kept => exact h
  | counted _ hb hr => exact ⟨h.results, serializerOk_countDown h.serializer hb hr, h.error⟩
  | finished => exact ⟨h.results, (serializerOk_of_idle rfl).2 rfl, h.error⟩
  | entered us _ hb _ hi hd => exact ⟨h.results, h.serializerOk_enterEntry hb hi hd, h.error⟩

theorem Inv.cycle (h : Inv s) (hc : cycle p s = .next t) : Inv t := by
  cases hr : p.rstN with
  | false =>
    rw [cycle_of_reset hr] at hc
    cases hc
    exact inv_reset.congr rfl rfl rfl
  | true =>
    obtain ⟨u, r, e, d, n, hu, hs, rfl⟩ := cycle_parts hr hc
    exact ((h.hostEffect hu).serializerEffect hs).congr rfl rfl rfl

/-- Settles O44: the reset state holds no result, is idle and reports no error. -/
theorem resetMeetsTheInvariant : Obligations.ResetMeetsTheInvariant := inv_reset

/-- Settles O45: the step is a cycle, whose host part and serializer part each keep the invariant. -/
theorem stepKeepsTheInvariant : Obligations.StepKeepsTheInvariant := by
  intro s t h hstep
  rw [step_eq_cycle] at hstep
  have htail : Inv { s with inputs := s.inputs.tail } := h.congr rfl rfl rfl
  exact htail.cycle hstep

end Sys2Proof.Machine
end

section
/-! SUPPORT. Which writes and which ticks change each register and each STATUS bit. -/

namespace Sys2Proof.Machine

variable {p : Pins} {s t u r : State}

/-! ### The sources of each STATUS bit in the host's part of a cycle (10_state.md R26) -/

/-- The pins write a command's word to CMD and no error applies to it. -/
def Completes (p : Pins) (s : State) (i : Instr) : Prop :=
  Writes p 0x08#8 (encode i) ∧ firstError (encode i) s = none

/-- CKOVF in numbers (40_encode_datapath.md R100). -/
theorem checkOverflows_eq (c : Triple) :
    checkOverflows c = decide ((c.ch.toNat + c.orange.toNat + c.yellow.toNat) % 16 = 0) := by
  have hsum : (maskedSum c.ch c.orange c.yellow).toNat = (c.ch.toNat + c.orange.toNat + c.yellow.toNat) % 16 := by
    simp only [maskedSum, BitVec.extractLsb'_toNat, BitVec.toNat_add, BitVec.toNat_setWidth, Nat.shiftRight_zero]
    omega
  rw [checkOverflows, ← hsum, Bool.eq_iff_iff, beq_iff_eq, decide_eq_true_eq, BitVec.toNat_eq]
  rfl

/-- A bit goes from `a` to `b`: it stays, or it is set and `S` holds, or it is cleared and `C` holds. -/
def BitChange (a b : Bool) (S C : Prop) : Prop := b = a ∨ (b = true ∧ S) ∨ (b = false ∧ C)

section
variable {a b c : Bool} {S C : Prop}

theorem BitChange.of_true (h : b = true) (hS : S) : BitChange a b S C := .inr (.inl ⟨h, hS⟩)

theorem BitChange.of_false (h : b = false) (hC : C) : BitChange a b S C := .inr (.inr ⟨h, hC⟩)

theorem BitChange.rise (h : BitChange a b S C) (ha : a = false) (hb : b = true) : S := by
  obtain h | ⟨-, hS⟩ | ⟨h, -⟩ := h
  · simp [ha, hb] at h
  · exact hS
  · simp [hb] at h

theorem BitChange.fall (h : BitChange a b S C) (ha : a = true) (hb : b = false) : C := by
  obtain h | ⟨h, -⟩ | ⟨-, hC⟩ := h
  · simp [ha, hb] at h
  · simp [hb] at h
  · exact hC

theorem BitChange.imp {S' C' : Prop} (h : BitChange a b S C) (hS : S → S') (hC : C → C') : BitChange a b S' C' :=
  Or.imp_right (Or.imp (And.imp_right hS) (And.imp_right hC)) h

theorem BitChange.then_eq (h : BitChange a b S C) (hc : c = b) : BitChange a c S C := hc ▸ h

end

/-- A W1C bit: a 0 written keeps it, a 1 clears it. -/
theorem bitChange_and_not {a w : Bool} {S C : Prop} (hC : w = true → C) : BitChange a (a && !w) S C := by
  cases w with
  | true => exact .of_false (by simp) (hC rfl)
  | false => exact .inl (by simp)

theorem HostEffect.valid (h : HostEffect p s u) :
    BitChange s.status.valid u.status.valid (Completes p s .encode) (Completes p s .clear) := by
  cases h with
  | encoded hw he => exact .of_true rfl ⟨hw, he⟩
  | cleared hw he => exact .of_false rfl ⟨hw, he⟩
  | _ => exact .inl rfl

theorem HostEffect.sbusy (h : HostEffect p s u) :
    BitChange s.status.sbusy u.status.sbusy (Completes p s .send) (Writes p 0x08#8 3#32) := by
  cases h with
  | started hw he => exact .of_true rfl ⟨hw, he⟩
  | stopped hw => exact .of_false rfl hw
  | _ => exact .inl rfl

theorem HostEffect.edone (h : HostEffect p s u) :
    BitChange s.status.edone u.status.edone (Completes p s .encode)
      (∃ v, Writes p 0x0C#8 v ∧ v.getLsbD 2 = true) := by
  cases h with
  | encoded hw he => exact .of_true rfl ⟨hw, he⟩
  | acknowledged v hw => exact bitChange_and_not fun hv => ⟨v, hw, hv⟩
  | _ => exact .inl rfl

/-- No access sets SDONE. -/
theorem HostEffect.sdone (h : HostEffect p s u) :
    BitChange s.status.sdone u.status.sdone False (∃ v, Writes p 0x0C#8 v ∧ v.getLsbD 3 = true) := by
  cases h with
  | acknowledged v hw => exact bitChange_and_not fun hv => ⟨v, hw, hv⟩
  | _ => exact .inl rfl

theorem HostEffect.err (h : HostEffect p s u) :
    BitChange s.status.err u.status.err
      (∃ w code, Writes p 0x08#8 w ∧ firstError w s = some code ∧ u.status.errcode = code)
      (∃ v, Writes p 0x0C#8 v ∧ v.getLsbD 4 = true ∧ u.status.errcode = 0#4) := by
  cases h with
  | failed w e hw he => exact .of_true rfl ⟨w, _, hw, he, rfl⟩
  | acknowledged v hw => exact bitChange_and_not fun hv => ⟨v, hw, hv, by simp [hv]⟩
  | _ => exact .inl rfl

theorem HostEffect.errcode (h : HostEffect p s u) :
    u.status.errcode = s.status.errcode ∨
      (∃ w code, Writes p 0x08#8 w ∧ firstError w s = some code ∧ u.status.errcode = code) ∨
      (∃ v, Writes p 0x0C#8 v ∧ v.getLsbD 4 = true ∧ u.status.errcode = 0#4 ∧ u.status.err = false) := by
  cases h with
  | failed w e hw he => exact .inr (.inl ⟨w, _, hw, he, rfl⟩)
  | acknowledged v hw =>
    cases hv : v[4] with
    | true => exact .inr (.inr ⟨v, hw, hv, by simp [hv], by simp [hv]⟩)
    | false => exact .inl (by simp [hv])
  | _ => exact .inl rfl

theorem HostEffect.ckovf (h : HostEffect p s u) :
    BitChange s.status.ckovf u.status.ckovf
      (Writes p 0x08#8 1#32 ∧ firstError 1#32 s = none ∧
        (s.inp.ch.toNat + s.inp.orange.toNat + s.inp.yellow.toNat) % 16 = 0)
      ((Writes p 0x08#8 1#32 ∧ firstError 1#32 s = none ∧
        (s.inp.ch.toNat + s.inp.orange.toNat + s.inp.yellow.toNat) % 16 ≠ 0) ∨ Completes p s .clear) := by
  cases h with
  | encoded hw he =>
    cases hk : checkOverflows s.inp with
    | true => exact .of_true rfl ⟨hw, he, by simpa [checkOverflows_eq] using hk⟩
    | false => exact .of_false rfl (.inl ⟨hw, he, by simpa [checkOverflows_eq] using hk⟩)
  | cleared hw he => exact .of_false rfl (.inr ⟨hw, he⟩)
  | _ => exact .inl rfl

theorem HostEffect.invcode (h : HostEffect p s u) :
    BitChange s.status.invcode u.status.invcode
      (Writes p 0x08#8 1#32 ∧ firstError 1#32 s = none ∧ ¬ IsMember s.inp)
      ((Writes p 0x08#8 1#32 ∧ firstError 1#32 s = none ∧ IsMember s.inp) ∨ Completes p s .clear) := by
  cases h with
  | encoded hw he =>
    cases hk : hasNonMember s.inp with
    | true => exact .of_true rfl ⟨hw, he, hasNonMember_iff.1 hk⟩
    | false => exact .of_false rfl (.inl ⟨hw, he, hasNonMember_eq_false_iff.1 hk⟩)
  | cleared hw he => exact .of_false rfl (.inr ⟨hw, he⟩)
  | _ => exact .inl rfl

/-! ### The writers of the other registers -/

theorem HostEffect.res (h : HostEffect p s u) :
    u.res = s.res ∨ Writes p 0x08#8 1#32 ∨ Writes p 0x08#8 4#32 := by
  cases h with
  | encoded hw => exact .inr (.inl hw)
  | cleared hw => exact .inr (.inr hw)
  | _ => exact .inl rfl

theorem HostEffect.ctrl (h : HostEffect p s u) : u.ctrl = s.ctrl ∨ ∃ v, Writes p 0x00#8 v := by
  cases h with
  | ctrlWritten v hw => exact .inr ⟨v, hw⟩
  | _ => exact .inl rfl

theorem HostEffect.inp (h : HostEffect p s u) : u.inp = s.inp ∨ ∃ v, Writes p 0x04#8 v := by
  cases h with
  | inWritten v hw => exact .inr ⟨v, hw⟩
  | _ => exact .inl rfl

theorem HostEffect.ser (h : HostEffect p s u) :
    u.ser = s.ser ∨ Writes p 0x08#8 2#32 ∨ Writes p 0x08#8 3#32 := by
  cases h with
  | started hw => exact .inr (.inl hw)
  | stopped hw => exact .inr (.inr hw)
  | _ => exact .inl rfl

theorem HostEffect.inputs (h : HostEffect p s u) : u.inputs = s.inputs := by
  cases h <;> rfl

/-- While busy no command writes the results, and only ABORT writes SERSTAT (70_reset_and_hazards.md R195). -/
theorem HostEffect.of_busy (h : HostEffect p s u) (hb : s.status.sbusy = true) :
    (u.status.sbusy = false ∧ Writes p 0x08#8 3#32) ∨ (u.ser = s.ser ∧ u.res = s.res) := by
  cases h with
  | encoded _ he => simp [firstError_encode_eq_none, hb] at he
  | started _ he => simp [firstError_send_eq_none, hb] at he
  | cleared _ he => simp [firstError_clear_eq_none, hb] at he
  | stopped hw => exact .inl ⟨rfl, hw⟩
  | _ => exact .inr ⟨rfl, rfl⟩

/-! ### The serializer's part of a cycle -/

/-- The state is in the last microsecond of its last entry. -/
def AtFrameEnd (s : State) : Prop :=
  s.ser.rem = 1#16 ∧ s.ser.idx.toNat + 1 = s.res.runcnt.toNat

/-- The serializer writes SERSTAT and, when the last entry ends, SBUSY and SDONE; nothing else. -/
theorem SerializerEffect.frame (h : SerializerEffect p s r) :
    r = { s with
      ser := r.ser
      status := { s.status with sbusy := r.status.sbusy, sdone := r.status.sdone } } := by
  cases h <;> rfl

theorem SerializerEffect.ser (h : SerializerEffect p s r) : r.ser = s.ser ∨ p.usTick = true := by
  cases h with
  | kept => exact .inl rfl
  | counted ht | finished ht | entered _ ht => exact .inr ht

/-- SBUSY falls and SDONE rises together, when the last entry ends in a tick cycle (41_serializer.md R132). -/
theorem SerializerEffect.events (h : SerializerEffect p s r) :
    (r.status.sbusy = s.status.sbusy ∧ r.status.sdone = s.status.sdone) ∨
      (r.status.sbusy = false ∧ r.status.sdone = true ∧ p.usTick = true ∧ s.status.sbusy = true ∧
        AtFrameEnd s) := by
  cases h with
  | finished ht hb hr hi => exact .inr ⟨rfl, rfl, ht, hb, hr, hi⟩
  | _ => exact .inl ⟨rfl, rfl⟩

section
variable (h : SerializerEffect p s r)
include h

theorem SerializerEffect.valid : r.status.valid = s.status.valid := by rw [h.frame]
theorem SerializerEffect.edone : r.status.edone = s.status.edone := by rw [h.frame]
theorem SerializerEffect.err : r.status.err = s.status.err := by rw [h.frame]
theorem SerializerEffect.errcode : r.status.errcode = s.status.errcode := by rw [h.frame]
theorem SerializerEffect.ckovf : r.status.ckovf = s.status.ckovf := by rw [h.frame]
theorem SerializerEffect.invcode : r.status.invcode = s.status.invcode := by rw [h.frame]
theorem SerializerEffect.res : r.res = s.res := by rw [h.frame]
theorem SerializerEffect.ctrl : r.ctrl = s.ctrl := by rw [h.frame]
theorem SerializerEffect.inp : r.inp = s.inp := by rw [h.frame]
theorem SerializerEffect.inputs : r.inputs = s.inputs := by rw [h.frame]

end

/-! ### SBUSY and SDONE over a whole cycle -/

/-- A SEND's first entry lasts longer than the microsecond of its own cycle: a frame that ends in a cycle was under way
before it. -/
theorem busy_of_atFrameEnd (hinv : Inv s) (h : HostEffect p s u) (hb : u.status.sbusy = true) (hend : AtFrameEnd u) :
    s.status.sbusy = true := by
  cases h with
  | started _ he =>
    have hv := (firstError_send_eq_none.1 he).2
    have hdur := hinv.le_dur hv (i := 0) (by decide) (hinv.runcnt_pos hv)
    have hone : s.res.dur[0] = 1#16 := hend.1
    simp [hone] at hdur
  | stopped => simp at hb
  | _ => exact hb

/-- The host's access to a busy machine does not move the frame's end. -/
theorem HostEffect.atFrameEnd_of_busy (h : HostEffect p s u) (hb : s.status.sbusy = true)
    (hub : u.status.sbusy = true) (hend : AtFrameEnd u) : AtFrameEnd s := by
  obtain ⟨hidle, -⟩ | ⟨hser, hres⟩ := h.of_busy hb
  · simp [hidle] at hub
  · simpa only [AtFrameEnd, hser, hres] using hend

theorem sbusy_change (hu : HostEffect p s u) (hs : SerializerEffect p u r) :
    BitChange s.status.sbusy r.status.sbusy (Completes p s .send)
      (Writes p 0x08#8 3#32 ∨ (p.usTick = true ∧ AtFrameEnd s)) := by
  obtain ⟨heq, -⟩ | ⟨hr, -, ht, hub, hend⟩ := hs.events
  · exact (hu.sbusy.then_eq heq).imp id .inl
  · cases hb : s.status.sbusy with
    | false => exact .inl hr
    | true => exact .of_false hr (.inr ⟨ht, hu.atFrameEnd_of_busy hb hub hend⟩)

/-- SDONE is set at the end of the frame the host's access leaves. -/
theorem sdone_change (hu : HostEffect p s u) (hs : SerializerEffect p u r) :
    BitChange s.status.sdone r.status.sdone
      (p.usTick = true ∧ r.status.sbusy = false ∧ u.status.sbusy = true ∧ AtFrameEnd u)
      (∃ v, Writes p 0x0C#8 v ∧ v.getLsbD 3 = true) := by
  obtain ⟨-, heq⟩ | ⟨hb, hd, ht, hub, hend⟩ := hs.events
  · exact (hu.sdone.then_eq heq).imp False.elim id
  · exact .of_true hd ⟨ht, hb, hub, hend⟩

/-- Where the invariant holds, that frame was at its end before the access. -/
theorem sdone_change_of_inv (hinv : Inv s) (hu : HostEffect p s u) (hs : SerializerEffect p u r) :
    BitChange s.status.sdone r.status.sdone (p.usTick = true ∧ s.status.sbusy = true ∧ AtFrameEnd s)
      (∃ v, Writes p 0x0C#8 v ∧ v.getLsbD 3 = true) := by
  refine (sdone_change hu hs).imp (fun ⟨ht, _, hub, hend⟩ => ?_) id
  have hb := busy_of_atFrameEnd hinv hu hub hend
  exact ⟨ht, hb, hu.atFrameEnd_of_busy hb hub hend⟩

/-! ### The statements over every step -/

/-- Settles O42: bit by bit from what the host's part of the cycle and the serializer's part do to it. -/
theorem statusBitsChangeOnlyByTheirSources : Obligations.StatusBitsChangeOnlyByTheirSources := by
  intro s t p hp hstep
  rw [step_eq_cycle, hp] at hstep
  refine ⟨fun hr => ?_, fun hr => ?_⟩
  · rw [cycle_of_reset hr] at hstep
    cases hstep
    rfl
  obtain ⟨u, r, e, d, n, hu, hs, rfl⟩ := cycle_parts hr hstep
  have hvalid := hu.valid.then_eq hs.valid
  have hsbusy := sbusy_change hu hs
  have hedone := hu.edone.then_eq hs.edone
  have hsdone := sdone_change hu hs
  have hlast (h : Inv s) :=
    sdone_change_of_inv (s := { s with inputs := s.inputs.tail }) (h.congr rfl rfl rfl) hu hs
  have herr := hu.err.then_eq hs.err
  have hcode := hu.errcode
  rw [← hs.errcode] at herr
  rw [← hs.errcode, ← hs.err] at hcode
  have hckovf := hu.ckovf.then_eq hs.ckovf
  have hinvcode := hu.invcode.then_eq hs.invcode
  exact ⟨hvalid.rise, hvalid.fall, hsbusy.rise, hsbusy.fall, hedone.rise, hedone.fall,
    (hsdone.imp (fun ⟨ht, hb, _⟩ => ⟨ht, hb⟩) id).rise, fun h => (hlast h).rise, hsdone.fall,
    herr.rise, herr.fall, hcode.resolve_left, hckovf.rise, hckovf.fall, hinvcode.rise, hinvcode.fall⟩

/-- Settles O43: a register the host's part and the serializer's part both leave alone does not change. -/
theorem registersChangeOnlyByTheirWriters : Obligations.RegistersChangeOnlyByTheirWriters := by
  intro s t p rest hin hstep hr
  rw [step_cons hin] at hstep
  obtain ⟨u, r, e, d, n, hu, hs, rfl⟩ := cycle_parts hr hstep
  refine ⟨fun hne => ?_, fun hne => ?_, fun hne => ?_, fun hne => ?_, hs.inputs.trans hu.inputs⟩
  · exact hu.res.resolve_left fun heq => hne (hs.res.trans heq)
  · exact hu.ctrl.resolve_left fun heq => hne (hs.ctrl.trans heq)
  · exact hu.inp.resolve_left fun heq => hne (hs.inp.trans heq)
  · obtain hser | ht := hs.ser
    · exact .inr (hu.ser.resolve_left fun heq => hne (hser.trans heq))
    · exact .inl ht

end Sys2Proof.Machine
end

section
/-! SUPPORT. The register window: the map, the bits of each word, and the reset state; and where a tick stops. -/

namespace Sys2Proof.Machine

variable {s : State}

/-! ### The register map -/

/-- The registers stand below 0x28 and from 0x40 to 0x98 (10_state.md R22). -/
theorem regOffset_range (r : Reg) :
    (regOffset r).toNat ≤ 0x24 ∨ (0x40 ≤ (regOffset r).toNat ∧ (regOffset r).toNat ≤ 0x98) := by
  cases r with
  | dur i =>
    have hoff : (regOffset (.dur i)).toNat = 0x40 + 4 * i.val := by
      simp only [regOffset, BitVec.toNat_ofNat]
      omega
    omega
  | _ => exact .inl (by decide)

theorem regAt_reserved {off : Offset} (h : (0x28 ≤ off.toNat ∧ off.toNat ≤ 0x3C) ∨ 0x9C ≤ off.toNat) :
    regAt off = none := by
  cases hr : regAt off with
  | none => rfl
  | some r =>
    have hrange := regOffset_range r
    rw [← regAt_eq_some off r hr] at hrange
    omega

/-- Settles O3: the map inverts `regOffset`, and no register's offset is a reserved one. -/
theorem registerMapFollowsTheTable : Obligations.RegisterMapFollowsTheTable :=
  ⟨regAt_regOffset .ctrl, regAt_regOffset .inp, regAt_regOffset .cmd, regAt_regOffset .status,
    regAt_regOffset .check, regAt_regOffset .bytes, regAt_regOffset .parity, regAt_regOffset .msg,
    regAt_regOffset .runcnt, regAt_regOffset .serstat, fun i => regAt_regOffset (.dur i),
    fun _ => regAt_reserved⟩

/-! ### The reset state -/

theorem regWord_reset (r : Reg) : regWord State.reset r = 0#32 := by
  cases r with
  | dur i => simp [regWord, durWord, State.reset, Results.zero]
  | _ => rfl

/-- Settles O1: each offset names a register that reads 0, or none. -/
theorem resetLeavesEverythingZero : Obligations.ResetLeavesEverythingZero := by
  refine ⟨fun off => ?_, rfl, rfl, rfl, rfl, rfl, rfl, rfl, rfl, rfl⟩
  unfold readWindow
  split
  · exact regWord_reset _
  · rfl

/-! ### What each offset reads -/

section
variable (s : State)

@[simp] theorem readWindow_ctrl : readWindow s 0x00#8 = ctrlWord s.ctrl := readWindow_regOffset s .ctrl
@[simp] theorem readWindow_inp : readWindow s 0x04#8 = inWord s.inp := readWindow_regOffset s .inp
@[simp] theorem readWindow_cmd : readWindow s 0x08#8 = 0#32 := readWindow_regOffset s .cmd
@[simp] theorem readWindow_status : readWindow s 0x0C#8 = statusWord s.status := readWindow_regOffset s .status
@[simp] theorem readWindow_check : readWindow s 0x10#8 = checkWord s.res := readWindow_regOffset s .check
@[simp] theorem readWindow_bytes : readWindow s 0x14#8 = bytesWord s.res := readWindow_regOffset s .bytes
@[simp] theorem readWindow_parity : readWindow s 0x18#8 = parityWord s.res := readWindow_regOffset s .parity
@[simp] theorem readWindow_msg : readWindow s 0x1C#8 = msgWord s.res := readWindow_regOffset s .msg
@[simp] theorem readWindow_runcnt : readWindow s 0x20#8 = runcntWord s.res := readWindow_regOffset s .runcnt
@[simp] theorem readWindow_serstat : readWindow s 0x24#8 = serstatWord s.ser := readWindow_regOffset s .serstat

theorem readWindow_dur (i : Fin 23) : readWindow s (BitVec.ofNat 8 (0x40 + 4 * i.val)) = durWord s.res i :=
  readWindow_regOffset s (.dur i)

end

/-! ### Where each field stands in its word -/

theorem ctrlWord_fields (c : Ctrl) :
    (ctrlWord c).getLsbD 0 = c.strict ∧ (ctrlWord c).getLsbD 1 = c.ieEdone ∧
      (ctrlWord c).getLsbD 2 = c.ieSdone ∧ (ctrlWord c).getLsbD 3 = c.ieErr := by
  simp only [ctrlWord, bit, BitVec.getLsbD_append]
  simp

theorem inWord_fields (c : Triple) :
    (inWord c).extractLsb' 0 4 = c.ch ∧ (inWord c).extractLsb' 4 4 = c.orange ∧
      (inWord c).extractLsb' 8 4 = c.yellow := by
  simp (disch := decide) only [inWord, BitVec.extractLsb'_append_eq_of_le,
    BitVec.extractLsb'_append_eq_of_add_le]
  simp

theorem statusWord_bits (c : Status) :
    (statusWord c).getLsbD 0 = c.valid ∧ (statusWord c).getLsbD 1 = c.sbusy ∧ (statusWord c).getLsbD 2 = c.edone ∧
      (statusWord c).getLsbD 3 = c.sdone ∧ (statusWord c).getLsbD 4 = c.err ∧ (statusWord c).getLsbD 5 = c.ckovf ∧
      (statusWord c).getLsbD 6 = c.invcode := by
  simp only [statusWord, bit, BitVec.getLsbD_append]
  simp

theorem statusWord_errcode (c : Status) : (statusWord c).extractLsb' 8 4 = c.errcode := by
  simp (disch := decide) only [statusWord, BitVec.extractLsb'_append_eq_of_le,
    BitVec.extractLsb'_append_eq_of_add_le]
  simp

section
variable (c : Results)

theorem checkWord_fields : (checkWord c).extractLsb' 0 5 = c.check ∧ (checkWord c).extractLsb' 8 4 = c.sum4 := by
  simp (disch := decide) only [checkWord, BitVec.extractLsb'_append_eq_of_le,
    BitVec.extractLsb'_append_eq_of_add_le]
  simp

theorem bytesWord_fields :
    (bytesWord c).extractLsb' 0 8 = c.byte1 ∧ (bytesWord c).extractLsb' 8 8 = c.byte2 ∧
      (bytesWord c).extractLsb' 16 8 = c.rev1 ∧ (bytesWord c).extractLsb' 24 8 = c.rev2 := by
  simp (disch := decide) only [bytesWord, BitVec.extractLsb'_append_eq_of_le,
    BitVec.extractLsb'_append_eq_of_add_le]
  simp

theorem parityWord_bits : (parityWord c).getLsbD 0 = c.p1 ∧ (parityWord c).getLsbD 1 = c.p2 := by
  simp only [parityWord, bit, BitVec.getLsbD_append]
  simp

theorem msgWord_field : (msgWord c).extractLsb' 0 23 = c.msg := BitVec.extractLsb'_append_eq_right

theorem runcntWord_field : (runcntWord c).extractLsb' 0 5 = c.runcnt := BitVec.extractLsb'_append_eq_right

theorem durWord_field (i : Fin 23) : (durWord c i).extractLsb' 0 16 = c.dur[i.val] :=
  BitVec.extractLsb'_append_eq_right

end

theorem serstatWord_fields (c : SerStat) :
    (serstatWord c).extractLsb' 0 5 = c.idx ∧ (serstatWord c).getLsbD 8 = c.level ∧
      (serstatWord c).extractLsb' 16 16 = c.rem := by
  simp (disch := decide) only [serstatWord, bit, BitVec.getLsbD_append, BitVec.extractLsb'_append_eq_of_le,
    BitVec.extractLsb'_append_eq_of_add_le]
  simp

/-- Settles O4: each offset reads its register's word, and the fields stand at their bits in that word. -/
theorem registerFieldsStandAtTheirBits : Obligations.RegisterFieldsStandAtTheirBits := by
  intro s
  obtain ⟨hvalid, hsbusy, hedone, hsdone, herr, hckovf, hinvcode⟩ := statusWord_bits s.status
  simp only [readWindow_ctrl, readWindow_inp, readWindow_status, readWindow_check, readWindow_bytes,
    readWindow_parity, readWindow_msg, readWindow_runcnt, readWindow_serstat, readWindow_dur]
  exact ⟨ctrlWord_fields s.ctrl, inWord_fields s.inp,
    ⟨hvalid, hsbusy, hedone, hsdone, herr, hckovf, hinvcode, statusWord_errcode s.status⟩,
    checkWord_fields s.res, bytesWord_fields s.res, parityWord_bits s.res, msgWord_field s.res,
    runcntWord_field s.res, serstatWord_fields s.ser, durWord_field s.res⟩

/-! ### Where a tick stops -/

/-- Settles O35: the one stop is the read past the table, and the next index is 23 or more for IDX 22 to 30 only,
since at 31 it wraps to 0. -/
theorem tickStopsOnlyOutsideTheTable : Obligations.TickStopsOnlyOutsideTheTable := by
  intro s f
  have hone : s.ser.rem - 1#16 = 0#16 ↔ s.ser.rem = 1#16 := by
    constructor <;> intro h <;> bv_omega
  have hout : s.res.dur[(s.ser.idx + 1#5).toNat]? = none ↔ 22 ≤ s.ser.idx.toNat ∧ s.ser.idx.toNat ≤ 30 := by
    rw [Vector.getElem?_eq_none_iff]
    bv_omega
  rw [← hone, ← hout]
  generalize ho : tick s = o
  have he := ho ▸ tick_effect s
  cases he with
  | idle hb => simp [hb]
  | counted hb hr => simp [hr]
  | finished hb hr hi => simp [hi]
  | entered us hb hr hi hd => simp only [hd, reduceCtorEq, and_false]
  | outside hb hr hi hd => exact ⟨fun h => by cases h; exact ⟨rfl, hb, hr, hi, hd⟩, fun h => by rw [h.1]⟩

end Sys2Proof.Machine
end

section
/-! SUPPORT. Words field by field: what masking a register word leaves of its fields. -/

namespace Sys2Proof.Machine

/-! ### Masking a word put together of fields -/

/-- A mask over two fields side by side masks each. -/
theorem append_and {m n : Nat} (a : BitVec m) (b : BitVec n) (w : BitVec (m + n)) :
    (a ++ b) &&& w = (a &&& w.extractLsb' n m) ++ (b &&& w.extractLsb' 0 n) := by
  rw [← BitVec.and_append, BitVec.extractLsb'_append_extractLsb']

theorem extractLsb'_extractLsb' {n i j k l : Nat} (w : BitVec n) (h : j + l ≤ k) :
    (w.extractLsb' i k).extractLsb' j l = w.extractLsb' (i + j) l := by
  ext q hq
  have hlt : j + q < k := by omega
  simp [hlt, Nat.add_assoc]

theorem extractLsb'_one {n : Nat} (w : BitVec n) (i : Nat) : w.extractLsb' i 1 = bit (w.getLsbD i) := by
  ext q hq
  obtain rfl : q = 0 := by omega
  simp [bit]

theorem bit_and_bit (a b : Bool) : bit a &&& bit b = bit (a && b) := BitVec.ofBool_and_ofBool

/-- CTRL keeps bits 3:0 of a written word (10_state.md R23). -/
theorem ctrlWord_ctrlOfWord (v : Word) : ctrlWord (ctrlOfWord v) = v &&& 0x0000000F#32 := by
  have hmask : 0x0000000F#32 = 0#28 ++ bit true ++ bit true ++ bit true ++ bit true := rfl
  rw [BitVec.and_comm, hmask]
  repeat rw [append_and]
  simp (disch := decide) only [extractLsb'_extractLsb', extractLsb'_one, bit_and_bit, BitVec.zero_and, Bool.true_and]
  rfl

/-- IN keeps bits 11:0 of a written word (10_state.md R24). -/
theorem inWord_tripleOfWord (v : Word) : inWord (tripleOfWord v) = v &&& 0x00000FFF#32 := by
  have hmask : 0x00000FFF#32 = 0#20 ++ BitVec.allOnes 4 ++ BitVec.allOnes 4 ++ BitVec.allOnes 4 := rfl
  rw [BitVec.and_comm, hmask]
  repeat rw [append_and]
  simp (disch := decide) only [extractLsb'_extractLsb', BitVec.zero_and, BitVec.allOnes_and]
  rfl

/-- A mask on STATUS masks its fields. -/
theorem statusWord_and (c : Status) (w : Word) :
    statusWord c &&& w = statusWord
      { valid := c.valid && w[0], sbusy := c.sbusy && w[1], edone := c.edone && w[2], sdone := c.sdone && w[3],
        err := c.err && w[4], ckovf := c.ckovf && w[5], invcode := c.invcode && w[6],
        errcode := c.errcode &&& w.extractLsb' 8 4 } := by
  unfold statusWord
  repeat rw [append_and]
  simp (disch := decide) only [extractLsb'_extractLsb', extractLsb'_one, bit_and_bit, BitVec.zero_and]
  rfl

/-- The bits of STATUS that a written word clears: the W1C bits that are 1 in it, and with bit 4 ERRCODE
(20_memory.md R53, 60_exceptions.md R177). -/
def clearedBits (v : Word) : Word := (v &&& 0x0000001C#32) ||| if v.getLsbD 4 then 0x00000F00#32 else 0#32

theorem statusWord_acknowledge (v : Word) (s : State) :
    statusWord (acknowledge v s).status = statusWord s.status &&& ~~~ clearedBits v := by
  rw [statusWord_and]
  unfold acknowledge clearedBits
  have hones : s.status.errcode &&& 15#4 = s.status.errcode := BitVec.and_allOnes
  cases hv : v[4] <;>
    simp [hv, hones, BitVec.extractLsb'_not_of_lt, BitVec.extractLsb'_or, BitVec.extractLsb'_and]

/-- Reserved bits read 0 (20_memory.md R51, R52). -/
theorem regWord_and_reserved (s : State) (r : Reg) : regWord s r &&& ~~~ implementedBits (regOffset r) = 0#32 := by
  cases r with
  | dur i =>
    have hmask : ∀ i : Fin 23, implementedBits (regOffset (.dur i)) = 0x0000FFFF#32 := by decide
    rw [hmask, regWord, durWord, append_and]
    simp
  | _ =>
    simp only [regWord, ctrlWord, inWord, statusWord, checkWord, bytesWord, parityWord, msgWord, runcntWord,
      serstatWord]
    repeat rw [append_and]
    simp [implementedBits, regOffset]

theorem readWindow_of_regAt {s : State} {off : Offset} {r : Reg} (h : regAt off = some r) :
    readWindow s off = regWord s r := by
  rw [regAt_eq_some off r h, readWindow_regOffset]

theorem readWindow_of_reserved {s : State} {off : Offset} (h : regAt off = none) : readWindow s off = 0#32 := by
  simp only [readWindow, h]

theorem readWindow_and_reserved (s : State) (off : Offset) : readWindow s off &&& ~~~ implementedBits off = 0#32 := by
  cases hr : regAt off with
  | none => rw [readWindow_of_reserved hr, BitVec.zero_and]
  | some r => rw [readWindow_of_regAt hr, regAt_eq_some off r hr, regWord_and_reserved]

end Sys2Proof.Machine
end

section
/-! SUPPORT. The register bus: what one access without a tick answers and leaves, and the schedule it does not read. -/

namespace Sys2Proof.Machine

variable {p : Pins} {s t : State} {off : Offset} {v : Word}

/-! ### The cycle of one access (20_memory.md R52 to R55) -/

/-- Out of reset and with no tick a cycle is its host access. -/
theorem cycle_eq_hostAccess (hr : p.rstN = true) (ht : p.usTick = false) : cycle p s = hostAccess p s := by
  obtain ⟨u, hu, -⟩ := hostAccess_effect p s
  simp [cycle, hr, ht, hu]

theorem accessIsDefined_iff {size : BitVec 2} :
    accessIsDefined size off = true ↔ size = 2#2 ∧ off.toNat % 4 = 0 := by
  rw [accessIsDefined_eq, decide_eq_true_eq]

theorem accessIsDefined_eq_false_iff {size : BitVec 2} :
    accessIsDefined size off = false ↔ size ≠ 2#2 ∨ off.toNat % 4 ≠ 0 := by
  rw [accessIsDefined_eq, decide_eq_false_iff_not, not_and_or]

/-- An undefined access, read or write, is a bus error (R55). -/
theorem cycle_of_undefined (hr : p.rstN = true) (hs : p.busSel = true) (ht : p.usTick = false)
    (hd : accessIsDefined p.busSize p.busAddr = false) : cycle p s = .next (respond true 0#32 s) := by
  rw [cycle_eq_hostAccess hr ht]
  cases hw : p.busWe with
  | false => simp [hostAccess, busRead, hs, hw, hd]
  | true => simp [hostAccess, busWrite, hs, hw, hd]

/-- A defined read answers the window's value (R52). -/
theorem cycle_of_read (hp : Reads p) (ht : p.usTick = false) (hd : accessIsDefined p.busSize p.busAddr = true) :
    cycle p s = .next (respond false (readWindow s p.busAddr) s) := by
  obtain ⟨hr, hs, hw⟩ := hp
  rw [cycle_eq_hostAccess hr ht]
  simp [hostAccess, busRead, hs, hw, hd]

/-- A defined write writes the window and is answered (R53). -/
theorem cycle_of_write (hp : Writes p off v) (ht : p.usTick = false) (ha : off.toNat % 4 = 0)
    (h : writeWindow off v s = .next t) : cycle p s = .next (respondWrite t) := by
  obtain ⟨hr, hs, hw, hsize, rfl, rfl⟩ := hp
  have hd := accessIsDefined_iff.2 ⟨hsize, ha⟩
  rw [cycle_eq_hostAccess hr ht]
  simp [hostAccess, busWrite, hs, hw, hd, h]

/-! ### The writes that run no command -/

theorem writeWindow_ctrl (v : Word) (s : State) : writeWindow 0x00#8 v s = .next (writeCtrl v s) := rfl
theorem writeWindow_inp (v : Word) (s : State) : writeWindow 0x04#8 v s = .next (writeIn v s) := rfl
theorem writeWindow_status (v : Word) (s : State) : writeWindow 0x0C#8 v s = .next (acknowledge v s) := rfl

/-- Every other offset but CMD's ignores a write (R53). -/
theorem writeWindow_ignored (v : Word) (s : State) (h0 : off ≠ 0x00#8) (h4 : off ≠ 0x04#8) (h8 : off ≠ 0x08#8)
    (hC : off ≠ 0x0C#8) : writeWindow off v s = .next s := by
  obtain ⟨t, ht, he⟩ := writeWindow_effect off v s
  cases he with
  | ctrl h => exact absurd h h0
  | inp h => exact absurd h h4
  | illegal h | command h => exact absurd h h8
  | status h => exact absurd h hC
  | ignored => exact ht

/-- A write that changes one register leaves every other offset as it was. -/
theorem readWindow_of_ne {r : Reg} (hw : ∀ q, q ≠ r → regWord t q = regWord s q) (hne : off ≠ regOffset r) :
    readWindow t off = readWindow s off :=
  readWindow_congr fun q hq => hw q fun heq => hne (heq ▸ regAt_eq_some off q hq)

theorem regWord_writeCtrl {q : Reg} (h : q ≠ .ctrl) : regWord (writeCtrl v s) q = regWord s q := by
  cases q with
  | ctrl => exact absurd rfl h
  | _ => rfl

theorem regWord_writeIn {q : Reg} (h : q ≠ .inp) : regWord (writeIn v s) q = regWord s q := by
  cases q with
  | inp => exact absurd rfl h
  | _ => rfl

theorem regWord_acknowledge {q : Reg} (h : q ≠ .status) : regWord (acknowledge v s) q = regWord s q := by
  cases q with
  | status => exact absurd rfl h
  | _ => rfl

theorem completesWrite_of_writeWindow (hp : Writes p off v) (ht : p.usTick = false) (ha : off.toNat % 4 = 0)
    (h : writeWindow off v s = .next t) : CompletesWrite (cycle p s) t :=
  ⟨_, _, cycle_of_write hp ht ha h⟩

/-- Acknowledging the same events again changes nothing. -/
theorem acknowledge_acknowledge (v : Word) (s : State) :
    acknowledge v (respondWrite (acknowledge v s)) = respondWrite (acknowledge v s) := by
  unfold acknowledge respondWrite
  cases v[4] <;> simp

/-! ### The statements about one access -/

/-- Settles O6: the access check fails, so the access is a bus error. -/
theorem undefinedAccessIsABusError : Obligations.UndefinedAccessIsABusError :=
  fun _ _ hr hs ht hd => cycle_of_undefined hr hs ht (accessIsDefined_eq_false_iff.2 hd)

/-- Settles O9: the write's effect on the window is none. -/
theorem readOnlyAndReservedWritesAreIgnored : Obligations.ReadOnlyAndReservedWritesAreIgnored :=
  fun _ s _ v hp ht ha h0 h4 h8 hC =>
    completesWrite_of_writeWindow hp ht ha (writeWindow_ignored v s h0 h4 h8 hC)

/-- Settles O5: a defined read answers the window, an undefined one is a bus error; every word keeps to its
implemented bits. -/
theorem readAnswersTheRegister : Obligations.ReadAnswersTheRegister := by
  intro p s hp ht
  have ⟨hr, hs, _⟩ := hp
  exact ⟨fun hd => cycle_of_undefined hr hs ht (accessIsDefined_eq_false_iff.2 hd),
    fun hd => cycle_of_read hp ht (accessIsDefined_iff.2 hd), fun _ _ => readWindow_of_regAt,
    fun _ => readWindow_of_reserved, readWindow_cmd s, readWindow_and_reserved s⟩

/-- Settles O7: the register holds the written fields, and no other register's word moves. -/
theorem ctrlAndInWritesReadBack : Obligations.CtrlAndInWritesReadBack := by
  intro p s v ht
  refine ⟨fun hp => ⟨writeCtrl v s, ?_, ?_, fun off hne => ?_, rfl⟩,
    fun hp => ⟨writeIn v s, ?_, ?_, fun off hne => ?_, rfl, rfl⟩⟩
  · exact completesWrite_of_writeWindow hp ht rfl (writeWindow_ctrl v s)
  · rw [readWindow_ctrl, writeCtrl_ctrl, ctrlWord_ctrlOfWord]
  · exact readWindow_of_ne (r := .ctrl) (fun _ => regWord_writeCtrl) hne
  · exact completesWrite_of_writeWindow hp ht rfl (writeWindow_inp v s)
  · rw [readWindow_inp, writeIn_inp, inWord_tripleOfWord]
  · exact readWindow_of_ne (r := .inp) (fun _ => regWord_writeIn) hne

/-- Settles O8: the new STATUS word is the old one without the acknowledged bits. -/
theorem statusWriteClearsAcknowledgedEvents : Obligations.StatusWriteClearsAcknowledgedEvents := by
  intro p s v hp ht
  refine ⟨acknowledge v s, ?_, ?_, fun off hne => ?_, rfl⟩
  · exact completesWrite_of_writeWindow hp ht rfl (writeWindow_status v s)
  · rw [readWindow_status, readWindow_status]
    exact statusWord_acknowledge v s
  · exact readWindow_of_ne (r := .status) (fun _ => regWord_acknowledge) hne

/-- A write whose effect settles in one application does nothing the second time. -/
theorem cycle_twice_of_write (f : State → State) (hf : ∀ s, writeWindow off v s = .next (f s))
    (hid : f (respondWrite (f s)) = respondWrite (f s)) (hp : Writes p off v) (ht : p.usTick = false)
    (ha : off.toNat % 4 = 0) (hc : cycle p s = .next t) :
    ∃ (d : Word) (n : Nat), cycle p t = .next { t with busRdata := d, freeCount := n } := by
  rw [cycle_of_write hp ht ha (hf s)] at hc
  cases hc
  exact ⟨_, _, cycle_of_write hp ht ha ((hf _).trans (congrArg _ hid))⟩

/-- A repeated read answers the same. -/
theorem cycle_twice_of_read (hp : Reads p) (ht : p.usTick = false) (hc : cycle p s = .next t) :
    cycle p t = .next t := by
  cases hd : accessIsDefined p.busSize p.busAddr with
  | false =>
    obtain ⟨hr, hs, -⟩ := hp
    rw [cycle_of_undefined hr hs ht hd] at hc
    cases hc
    exact cycle_of_undefined hr hs ht hd
  | true =>
    rw [cycle_of_read hp ht hd] at hc
    cases hc
    exact cycle_of_read hp ht hd

/-- Settles O10: a read leaves what it reads, and each write's effect is idempotent. -/
theorem accessesOtherThanCommandsAreIdempotent : Obligations.AccessesOtherThanCommandsAreIdempotent := by
  rintro p s t ht (hp | ⟨v, hp | hp | hp⟩) hc
  · exact ⟨_, _, cycle_twice_of_read hp ht hc⟩
  · exact cycle_twice_of_write _ (writeWindow_ctrl v) rfl hp ht rfl hc
  · exact cycle_twice_of_write _ (writeWindow_inp v) rfl hp ht rfl hc
  · exact cycle_twice_of_write _ (writeWindow_status v) (acknowledge_acknowledge v s) hp ht rfl hc

end Sys2Proof.Machine
end

section
/-! SUPPORT. The schedule: a cycle neither reads nor writes the pins of the cycles to come. -/

namespace Sys2Proof.Machine

/-- The state with another schedule of the coming cycles. -/
def withInputs (ps : List Pins) (s : State) : State := { s with inputs := ps }

/-- An outcome with `f` applied to its next state; a stop stays. -/
def mapNext (f : State → State) : Host.Outcome State Fault Refusal → Host.Outcome State Fault Refusal
  | .next s => .next (f s)
  | .fault e => .fault e
  | .refused r => .refused r

@[simp] theorem mapNext_next (f : State → State) (s : State) : mapNext f (.next s) = .next (f s) := rfl
@[simp] theorem mapNext_fault (f : State → State) (e : Fault) : mapNext f (.fault e) = .fault e := rfl
@[simp] theorem mapNext_refused (f : State → State) (r : Refusal) : mapNext f (.refused r) = .refused r := rfl

section
variable (ps : List Pins) (s : State)

@[simp] theorem withInputs_status : (withInputs ps s).status = s.status := rfl
@[simp] theorem withInputs_res : (withInputs ps s).res = s.res := rfl
@[simp] theorem withInputs_ser : (withInputs ps s).ser = s.ser := rfl

theorem exec_withInputs (i : Instr) : exec i (withInputs ps s) = mapNext (withInputs ps) (exec i s) := by
  cases i with
  | nop => rfl
  | encode => simp only [exec, execEncode, apply_ite (mapNext (withInputs ps))]; rfl
  | send => simp only [exec, execSend, apply_ite (mapNext (withInputs ps))]; rfl
  | abort => simp only [exec, execAbort, apply_ite (mapNext (withInputs ps))]; rfl
  | clear => simp only [exec, execClear, apply_ite (mapNext (withInputs ps))]; rfl

theorem runCommandWord_withInputs (w : Word) :
    runCommandWord w (withInputs ps s) = mapNext (withInputs ps) (runCommandWord w s) := by
  unfold runCommandWord
  cases decodeWord w with
  | ok i => exact exec_withInputs ps s i
  | error => rfl

theorem writeWindow_withInputs (off : Offset) (v : Word) :
    writeWindow off v (withInputs ps s) = mapNext (withInputs ps) (writeWindow off v s) := by
  unfold writeWindow
  cases regAt off with
  | none => rfl
  | some r =>
    cases r with
    | cmd => exact runCommandWord_withInputs ps s v
    | _ => rfl

theorem busWrite_withInputs (size : BitVec 2) (off : Offset) (v : Word) :
    busWrite size off v (withInputs ps s) = mapNext (withInputs ps) (busWrite size off v s) := by
  unfold busWrite
  rw [writeWindow_withInputs]
  split
  · cases writeWindow off v s <;> rfl
  · rfl

theorem hostAccess_withInputs (p : Pins) :
    hostAccess p (withInputs ps s) = mapNext (withInputs ps) (hostAccess p s) := by
  unfold hostAccess
  rw [busWrite_withInputs, apply_ite (mapNext _), apply_ite (mapNext _)]
  have hread : busRead p.busSize p.busAddr (withInputs ps s) = withInputs ps (busRead p.busSize p.busAddr s) := by
    simp only [busRead, apply_ite (withInputs ps)]
    rfl
  rw [hread]
  rfl

theorem tick_withInputs : tick (withInputs ps s) = mapNext (withInputs ps) (tick s) := by
  simp only [tick, withInputs_status, withInputs_res, withInputs_ser, apply_ite (mapNext (withInputs ps))]
  cases s.res.dur[(s.ser.idx + 1#5).toNat]? with
  | none => rfl
  | some us => rfl

theorem cycle_withInputs (p : Pins) : cycle p (withInputs ps s) = mapNext (withInputs ps) (cycle p s) := by
  unfold cycle
  rw [hostAccess_withInputs]
  split
  · rfl
  · cases hostAccess p s with
    | next t =>
      rw [mapNext_next]
      simp only [apply_ite (mapNext _), tick_withInputs, mapNext_next]
    | fault => rfl
    | refused => rfl

end

/-- Settles O47: by induction on the cycles, since each one leaves the rest of the schedule alone. -/
theorem stepsRunTheScheduleInOrder : Obligations.StepsRunTheScheduleInOrder := by
  intro ps rest
  induction ps with
  | nil => exact fun _ => rfl
  | cons p ps ih =>
    intro s
    have hstep : core.step (withInputs (p :: ps ++ rest) s) = cycle p (withInputs (ps ++ rest) s) := rfl
    change core.run (ps.length + 1) (withInputs (p :: ps ++ rest) s) = runCycles (p :: ps) (withInputs rest s)
    simp only [Host.Core.run, hstep, runCycles, cycle_withInputs]
    cases cycle p s with
    | next t => exact ih t
    | fault => rfl
    | refused => rfl

end Sys2Proof.Machine
end

section
/-! SUPPORT. The command word: the decoder on every word, and on the four byte lanes of one (30_encoding.md R74 to R76,
20_memory.md R56). -/

namespace Sys2Proof.Machine

variable {w : Word} {i : Instr} {e : DecodeReject}

/-! ### The decoder over all words -/

theorem decodeWord_encode (i : Instr) : decodeWord (encode i) = .ok i := by
  cases i with
  | nop => exact Laws.RoundTrip.nop rfl
  | encode => exact Laws.RoundTrip.encode rfl
  | send => exact Laws.RoundTrip.send rfl
  | abort => exact Laws.RoundTrip.abort rfl
  | clear => exact Laws.RoundTrip.clear rfl

theorem decodeWord_eq_ok_iff : decodeWord w = .ok i ↔ w = encode i :=
  ⟨eq_encode_of_decodeWord, fun h => h ▸ decodeWord_encode i⟩

theorem encode_toNat_le (i : Instr) : (encode i).toNat ≤ 4 := by
  cases i <;> decide

/-- MBZ is bits 31:4, so it is zero in the words below 16 (R74). -/
theorem mbzIsZero_cmdFields (w : Word) : mbzIsZero (cmdFields w) = decide (w.toNat < 16) := by
  have hmbz : (w.extractLsb' 4 28).toNat = w.toNat / 16 := by
    rw [BitVec.extractLsb'_toNat, Nat.shiftRight_eq_div_pow, Nat.mod_eq_of_lt]
    omega
  have hzero : w.extractLsb' 4 28 = 0#28 ↔ w.toNat < 16 := by
    rw [← BitVec.toNat_inj, hmbz, BitVec.toNat_ofNat]
    omega
  simp only [mbzIsZero, cmdFields, beq_eq_decide, hzero]

/-- The reason a word outside the table is rejected for: its MBZ bits before its OP. -/
theorem reject_of_decodeWord_error (h : decodeWord w = .error e) :
    e = if w.toNat < 16 then .opNotAssigned else .mbzNotZero := by
  unfold decodeWord at h
  split at h
  · cases h
  · cases h
    simp only [mbzIsZero_cmdFields, decide_eq_true_eq]

/-- Every word of 5 or more is rejected, and for one reason only (R76). -/
theorem decodeWord_eq_error_iff :
    decodeWord w = .error e ↔ 5 ≤ w.toNat ∧ e = if w.toNat < 16 then .opNotAssigned else .mbzNotZero := by
  refine ⟨fun h => ⟨lt_toNat_of_decodeWord_error h, reject_of_decodeWord_error h⟩, fun ⟨h5, he⟩ => ?_⟩
  cases hd : decodeWord w with
  | ok i =>
    have hle := encode_toNat_le i
    rw [← eq_encode_of_decodeWord hd] at hle
    omega
  | error e' => rw [he, reject_of_decodeWord_error hd]

theorem decodeWord_eq_mbzNotZero_iff : decodeWord w = .error .mbzNotZero ↔ 16 ≤ w.toNat := by
  rw [decodeWord_eq_error_iff]
  split <;> simp <;> omega

theorem decodeWord_eq_opNotAssigned_iff :
    decodeWord w = .error .opNotAssigned ↔ 5 ≤ w.toNat ∧ w.toNat ≤ 15 := by
  rw [decodeWord_eq_error_iff]
  split <;> simp <;> omega

/-! ### A word as its byte lanes -/

/-- The four lanes side by side are the word. -/
theorem wordOfLanes_wordLane (w : Word) :
    wordOfLanes (wordLane w 0) (wordLane w 1) (wordLane w 2) (wordLane w 3) = w := by
  unfold wordOfLanes wordLane
  have h3 : 8 * 3 = 8 * 2 + 8 := rfl
  have h2 : 8 * 2 = 8 * 1 + 8 := rfl
  rw [BitVec.extractLsb'_append_extractLsb'_eq_extractLsb' h3,
    BitVec.extractLsb'_append_extractLsb'_eq_extractLsb' h2]
  exact BitVec.extractLsb'_append_extractLsb'

theorem decodeBytes_wordBytes_append (rest : List Byte) (h : decodeWord w = .ok i) :
    decodeBytes (wordBytes w ++ rest) = .ok (i, rest) := by
  simp only [wordBytes, List.cons_append, List.nil_append, decodeBytes, wordOfLanes_wordLane, h]

/-! ### The statements about the decoder -/

/-- Settles O13: the accepted words are the commands' own, and the rejected ones split at 16 by their MBZ bits. -/
theorem decodeAndEncodeAgree : Obligations.DecodeAndEncodeAgree :=
  ⟨fun _ _ => decodeWord_eq_ok_iff, fun _ => decodeWord_eq_mbzNotZero_iff,
    fun _ => decodeWord_eq_opNotAssigned_iff,
    fun i rest => decodeBytes_wordBytes_append rest (decodeWord_encode i), wordOfLanes_wordLane⟩

/-- Settles O12: each word of the table is its command's word. -/
theorem decoderReadsTheTableWords : Obligations.DecoderReadsTheTableWords :=
  ⟨decodeWord_encode .nop, decodeWord_encode .encode, decodeWord_encode .send, decodeWord_encode .abort,
    decodeWord_encode .clear⟩

end Sys2Proof.Machine
end

section
/-! SUPPORT. The byte pair in numbers, and the message bit by bit (30_encoding.md R77 to R79). -/

namespace Sys2Proof.Machine

variable {m : List Bool} {j k : Nat}

/-! ### The byte pair -/

theorem maskedSum_toNat (c o y : Nibble) : (maskedSum c o y).toNat = (c.toNat + o.toNat + y.toNat) % 16 := by
  simp only [maskedSum, BitVec.extractLsb'_toNat, BitVec.toNat_add, BitVec.toNat_setWidth, Nat.shiftRight_zero]
  omega

theorem checkDigit_toNat (sum4 : BitVec 4) : (checkDigit sum4).toNat = 16 - sum4.toNat := by
  simp only [checkDigit, BitVec.toNat_sub, BitVec.toNat_setWidth, BitVec.toNat_ofNat]
  omega

theorem assembleByte1_toNat (c o : Nibble) : (assembleByte1 c o).toNat = c.toNat * 16 + o.toNat := by
  rw [assembleByte1, BitVec.toNat_append, ← Nat.shiftLeft_add_eq_or_of_lt o.isLt, Nat.shiftLeft_eq]

theorem assembleByte2_toNat (y : Nibble) (chk : BitVec 5) :
    (assembleByte2 y chk).toNat = (y.toNat * 16 + chk.toNat) % 256 := by
  simp only [assembleByte2, BitVec.extractLsb'_toNat, BitVec.toNat_add, BitVec.toNat_mul, BitVec.toNat_setWidth,
    BitVec.toNat_ofNat, Nat.shiftRight_zero]
  omega

/-- Settles O25: byte2 keeps the check digit unless it is 16, which carries into the yellow nibble; then the three
codes sum to 0 modulo 16, so the sent nibbles sum to the carry. -/
theorem bytePairIsAssembled : Obligations.BytePairIsAssembled := by
  intro c r
  have hbyte1 : r.byte1.toNat = c.ch.toNat * 16 + c.orange.toNat := assembleByte1_toNat _ _
  have hbyte2 : r.byte2.toNat = (c.yellow.toNat * 16 + r.check.toNat) % 256 := assembleByte2_toNat _ _
  have hcheck : r.check.toNat = 16 - (maskedSum c.ch c.orange c.yellow).toNat := checkDigit_toNat _
  rw [maskedSum_toNat] at hcheck
  refine ⟨hbyte1, hbyte2, fun hchk => ?_, fun hchk => ⟨?_, ?_⟩⟩ <;> omega

/-! ### The bits of a frame -/

/-- Bit i of the reversed byte is bit 7 - i (40_encode_datapath.md R105). -/
theorem rev8_getLsbD (b : Byte) {i : Nat} (hi : i < 8) : (rev8 b).getLsbD i = b.getLsbD (7 - i) := by
  simp only [rev8, BitVec.getLsbD_append]
  interval_cases i <;> simp

/-- The data bits of a byte's frame follow its start bit, least significant first (30_encoding.md R78). -/
theorem frame_rev8_data (b : Byte) (p : Bool) (hj : j < 8) : (frame (rev8 b) p)[1 + j]? = some (b.getLsbD j) := by
  have hrev := rev8_getLsbD b (i := 7 - j) (by omega)
  rw [show 7 - (7 - j) = j by omega] at hrev
  rw [← hrev]
  interval_cases j <;> rfl

/-! ### The message in MSG -/

/-- Bit j of the number a message is read as is its bit j from the end (10_state.md R27). -/
theorem foldl_bits_testBit (m : List Bool) (j : Nat) :
    (m.foldl (fun (n : Nat) (b : Bool) => 2 * n + b.toNat) 0).testBit j = m.reverse.getD j false := by
  simp only [← Nat.bit_val]
  induction m using List.reverseRecOn generalizing j with
  | nil => simp
  | append_singleton m b ih =>
    rw [List.foldl_concat, List.reverse_concat]
    cases j with
    | zero => exact Nat.testBit_bit_zero _ _
    | succ j => exact (Nat.testBit_bit_succ _ _ _).trans (ih j)

theorem getElem?_eq_msgRegister (hm : m.length = 23) (hk : k < 23) :
    m[k]? = some ((msgRegister m).getLsbD (22 - k)) := by
  have hlt : 22 - k < 23 := by omega
  have hrev : m.reverse[22 - k]? = m[k]? := by
    rw [List.getElem?_reverse (by omega)]
    congr 1
    omega
  rw [msgRegister, BitVec.getLsbD_ofNat, decide_eq_true hlt, Bool.true_and, foldl_bits_testBit,
    List.getD_eq_getElem?_getD, hrev, List.getElem?_eq_getElem (by omega), Option.getD_some]

theorem messageOf_getElem? (c : Triple) (hk : k < 23) :
    (messageOf c.ch c.orange c.yellow)[k]? = some (msgBit (encodeTriple c) k) :=
  getElem?_eq_msgRegister (messageOf_length _ _ _) hk

/-- Bits 0 to 10 of the message are byte1's frame (30_encoding.md R79). -/
theorem frame1_getElem? (c : Triple) (hk : k < 11) :
    (frame (encodeTriple c).rev1 (encodeTriple c).p1)[k]? = some (msgBit (encodeTriple c) k) := by
  rw [← messageOf_getElem? c (by omega)]
  exact (List.getElem?_append_left hk).symm

/-- Bits 12 to 22 of the message are byte2's frame (R79). -/
theorem frame2_getElem? (c : Triple) (hk : k < 11) :
    (frame (encodeTriple c).rev2 (encodeTriple c).p2)[k]? = some (msgBit (encodeTriple c) (12 + k)) := by
  rw [← messageOf_getElem? c (by omega), Nat.add_comm 12 k]
  rfl

/-- Settles O29: each position is one of the separator, byte1's frame and byte2's frame. -/
theorem messageBitsStandAtTheirPositions : Obligations.MessageBitsStandAtTheirPositions := by
  intro c r
  refine ⟨?_, fun j hj => ?_, ?_, ?_, ?_, ?_, fun j hj => ?_, ?_, ?_, fun k hk => messageOf_getElem? c hk⟩
  · exact Option.some.inj (frame1_getElem? c (k := 0) (by decide)).symm
  · exact Option.some.inj ((frame1_getElem? c (by omega)).symm.trans (frame_rev8_data _ _ hj))
  · exact Option.some.inj (frame1_getElem? c (k := 9) (by decide)).symm
  · exact Option.some.inj (frame1_getElem? c (k := 10) (by decide)).symm
  · exact Option.some.inj (messageOf_getElem? c (k := 11) (by decide)).symm
  · exact Option.some.inj (frame2_getElem? c (k := 0) (by decide)).symm
  · have hbit := (frame2_getElem? c (k := 1 + j) (by omega)).symm.trans (frame_rev8_data _ _ hj)
    rw [← Nat.add_assoc] at hbit
    exact Option.some.inj hbit
  · exact Option.some.inj (frame2_getElem? c (k := 9) (by decide)).symm
  · exact Option.some.inj (frame2_getElem? c (k := 10) (by decide)).symm

end Sys2Proof.Machine
end

section
/-! SUPPORT. The host's transactions: what the reads and the ticks of a POLL leave while the serializer is idle
(30_encoding.md R80). -/

namespace Sys2Proof.Machine

variable {s t u : State} {off : Offset} {mask value : Word}

/-! ### Cycles that change the response lines only -/

theorem readWindow_withResponse (e : Bool) (d : Word) (n : Nat) (s : State) (o : Offset) :
    readWindow (withResponse e d n s) o = readWindow s o :=
  readWindow_congr fun r _ => by cases r <;> rfl

/-- The two states differ in the response lines at most. -/
def SameRegisters (s t : State) : Prop := ∃ e d n, t = withResponse e d n s

theorem SameRegisters.refl (s : State) : SameRegisters s s := ⟨s.busErr, s.busRdata, s.freeCount, rfl⟩

theorem SameRegisters.trans (h : SameRegisters s t) (h' : SameRegisters t u) : SameRegisters s u := by
  obtain ⟨e, d, n, rfl⟩ := h
  obtain ⟨e', d', n', rfl⟩ := h'
  exact ⟨e', d', n', rfl⟩

theorem SameRegisters.sbusy (h : SameRegisters s t) : t.status.sbusy = s.status.sbusy := by
  obtain ⟨_, _, _, rfl⟩ := h
  rfl

theorem SameRegisters.readWindow (h : SameRegisters s t) (o : Offset) :
    readWindow t o = Machine.readWindow s o := by
  obtain ⟨e, d, n, rfl⟩ := h
  exact readWindow_withResponse e d n s o

/-- What a 32-bit read answers at a multiple of 4, and anywhere else (20_memory.md R52, R55). -/
def readResponse (off : Offset) (s : State) : State :=
  if off.toNat % 4 = 0 then respond false (readWindow s off) s else respond true 0#32 s

theorem readResponse_of_aligned (ha : off.toNat % 4 = 0) : readResponse off s = respond false (readWindow s off) s :=
  if_pos ha

theorem sameRegisters_readResponse (off : Offset) (s : State) : SameRegisters s (readResponse off s) := by
  unfold readResponse
  split <;> exact ⟨_, _, _, rfl⟩

theorem cycle_readPins (off : Offset) (s : State) : cycle (readPins off) s = .next (readResponse off s) := by
  unfold readResponse
  split
  · next ha => exact cycle_of_read ⟨rfl, rfl, rfl⟩ rfl (accessIsDefined_iff.2 ⟨rfl, ha⟩)
  · next ha => exact cycle_of_undefined rfl rfl rfl (accessIsDefined_eq_false_iff.2 (.inr ha))

/-- While idle a tick finds nothing to do (41_serializer.md R130). -/
theorem tick_of_idle (hb : s.status.sbusy = false) : tick s = .next s := by
  simp [tick, hb]

theorem cycle_tickPins_of_idle (hb : s.status.sbusy = false) : cycle tickPins s = .next (respondNone s) :=
  tick_of_idle (s := respondNone s) hb

theorem runTicks_succ (n : Nat) (h : cycle tickPins s = .next t) : runTicks (n + 1) s = runTicks n t := by
  simp only [runTicks, List.replicate_succ, runCycles, h]

theorem runTicks_of_idle (n : Nat) (hb : s.status.sbusy = false) :
    ∃ t, runTicks n s = .next t ∧ SameRegisters s t := by
  induction n generalizing s with
  | zero => exact ⟨s, rfl, .refl s⟩
  | succ n ih =>
    have hnone : SameRegisters s (respondNone s) := ⟨_, _, _, rfl⟩
    obtain ⟨t, ht, hsame⟩ := ih (hnone.sbusy.trans hb)
    exact ⟨t, (runTicks_succ n (cycle_tickPins_of_idle hb)).trans ht, hnone.trans hsame⟩

/-! ### POLL -/

/-- A POLL reads; it ends there when the value matches, and otherwise the ticks pass and it goes on. -/
theorem runPoll_cons (gap : Nat) (gaps : List Nat)
    (h : runPoll off mask value (gap :: gaps) s = some (.next u)) :
    ((readResponse off s).busRdata &&& mask = value ∧ u = readResponse off s) ∨
      ∃ t, runTicks gap (readResponse off s) = .next t ∧ runPoll off mask value gaps t = some (.next u) := by
  simp only [runPoll, cycle_readPins] at h
  split at h
  · next hmatch =>
    cases h
    exact .inl ⟨hmatch, rfl⟩
  · split at h
    · next t ht => exact .inr ⟨t, ht, h⟩
    · cases h
    · cases h

/-- A POLL ends on a read that matches, of a state with the registers it began with if the serializer was idle. -/
theorem runPoll_next (gaps : List Nat) (h : runPoll off mask value gaps s = some (.next u)) :
    ∃ t, u = readResponse off t ∧ u.busRdata &&& mask = value ∧ (s.status.sbusy = false → SameRegisters s t) := by
  induction gaps generalizing s with
  | nil => cases h
  | cons gap gaps ih =>
    obtain ⟨hmatch, rfl⟩ | ⟨t, ht, hpoll⟩ := runPoll_cons gap gaps h
    · exact ⟨s, rfl, hmatch, fun _ => .refl s⟩
    · obtain ⟨t', hu, hmatch, hsame⟩ := ih hpoll
      refine ⟨t', hu, hmatch, fun hb => ?_⟩
      have hread := sameRegisters_readResponse off s
      obtain ⟨t₂, ht₂, hticks⟩ := runTicks_of_idle gap (hread.sbusy.trans hb)
      cases ht.symm.trans ht₂
      have hst := hread.trans hticks
      exact hst.trans (hsame (hst.sbusy.trans hb))

/-- Settles O48: the last read matches; at a multiple of 4 it answered the register, and reading changed none. -/
theorem pollEndsOnAMatchingRead : Obligations.PollEndsOnAMatchingRead := by
  intro off mask value gaps s u h
  obtain ⟨t, rfl, hmatch, hsame⟩ := runPoll_next gaps h
  have hread := sameRegisters_readResponse off t
  refine ⟨hmatch, fun ha => ?_, fun hb => ((hsame hb).trans hread).readWindow⟩
  rw [hread.readWindow]
  rw [readResponse_of_aligned ha] at hmatch ⊢
  exact ⟨rfl, hmatch⟩

end Sys2Proof.Machine
end

section
/-! SUPPORT. The check digit over every triple and over the members, and the bytes it closes (40_encode_datapath.md R100
to R104). -/

namespace Sys2Proof.Machine

/-! ### The check digit -/

/-- The exact sum of a triple's inputs (R100). -/
def codeSum (c : Triple) : Nat := c.ch.toNat + c.orange.toNat + c.yellow.toNat

theorem encodeTriple_sum4_toNat (c : Triple) : (encodeTriple c).sum4.toNat = codeSum c % 16 :=
  maskedSum_toNat _ _ _

theorem encodeTriple_check_toNat (c : Triple) : (encodeTriple c).check.toNat = 16 - codeSum c % 16 := by
  rw [← encodeTriple_sum4_toNat]
  exact checkDigit_toNat _

/-- Of 16 numbers in a row one is a multiple of 16, whatever is added to them. -/
theorem count_add_mod_sixteen (a : Nat) : Nat.count (fun j => (j + a) % 16 = 0) 16 = 1 := by
  have hlow : ∀ r, r < 16 → Nat.count (fun j => (j + r) % 16 = 0) 16 = 1 := by decide
  simpa only [Nat.add_mod_mod] using hlow (a % 16) (Nat.mod_lt a (by decide))

/-- A predicate met once in each block of 16 numbers is met `k` times below `16 * k`. -/
theorem count_of_blocks (q : Nat → Prop) [DecidablePred q]
    (h : ∀ k, Nat.count (fun j => q (16 * k + j)) 16 = 1) (k : Nat) : Nat.count q (16 * k) = k := by
  induction k with
  | zero => rfl
  | succ k ih => rw [Nat.mul_succ, Nat.count_add, ih, h]

theorem length_filter_range (q : Nat → Prop) [DecidablePred q] (n : Nat) :
    ((List.range n).filter fun k => q k).length = Nat.count q n := by
  rw [Nat.count, List.countP_eq_length_filter]

/-- The masked sum of the triple with index `n` is 0 when its three hexadecimal digits sum to a multiple of 16. -/
theorem maskedSum_digits_eq_zero (n : Nat) :
    maskedSum (BitVec.ofNat 4 n) (BitVec.ofNat 4 (n / 16)) (BitVec.ofNat 4 (n / 256)) = 0#4 ↔
      (n + n / 16 + n / 256) % 16 = 0 := by
  rw [← BitVec.toNat_inj, maskedSum_toNat]
  simp only [BitVec.toNat_ofNat]
  omega

theorem count_maskedSum_eq_zero :
    ((List.range 4096).filter fun n =>
      maskedSum (BitVec.ofNat 4 n) (BitVec.ofNat 4 (n / 16)) (BitVec.ofNat 4 (n / 256)) = 0#4).length = 256 := by
  simp only [maskedSum_digits_eq_zero]
  refine (length_filter_range _ 4096).trans (count_of_blocks _ (fun k => ?_) 256)
  rw [← count_add_mod_sixteen (k + k / 16), Nat.count_eq_card_filter_range, Nat.count_eq_card_filter_range]
  refine congrArg _ (Finset.filter_congr fun j hj => ?_)
  have hj : j < 16 := Finset.mem_range.1 hj
  have h16 : (16 * k + j) / 16 = k := by omega
  have h256 : (16 * k + j) / 256 = k / 16 := by omega
  omega

/-- Settles O24: SUM4 is the sum modulo 16 and CHECK what is missing to 16; in each row of 16 triples one sum is 0. -/
theorem checkDigitSumsToZero : Obligations.CheckDigitSumsToZero := by
  refine ⟨fun c => ?_, count_maskedSum_eq_zero⟩
  intro sum
  have hcheck : (encodeTriple c).check.toNat = 16 - sum % 16 := encodeTriple_check_toNat c
  exact ⟨encodeTriple_sum4_toNat c, hcheck, by omega, checkOverflows_eq c, by omega⟩

/-! ### The members -/

theorem isMember_sums {c : Triple} (h : IsMember c) :
    4 ≤ c.ch.toNat ∧ c.ch.toNat ≤ 7 ∧ (c.orange.toNat + c.yellow.toNat) % 16 ∈ [0, 6, 7, 8, 14, 15] := by
  obtain ⟨hch, horange, hyellow⟩ := h
  have hchannel : ∀ d ∈ [0x4#4, 0x5#4, 0x6#4, 0x7#4], 4 ≤ d.toNat ∧ d.toNat ≤ 7 := by decide
  have hcommands : ∀ o ∈ [0x0#4, 0x7#4, 0x8#4, 0xF#4], ∀ y ∈ [0x0#4, 0x7#4, 0x8#4, 0xF#4],
      (o.toNat + y.toNat) % 16 ∈ [0, 6, 7, 8, 14, 15] := by decide
  exact ⟨(hchannel _ hch).1, (hchannel _ hch).2, hcommands _ horange _ hyellow⟩

/-- Four of the command pairs, with the four channels, reach every check digit a member has. -/
theorem exists_member_of_check : ∀ k ∈ [1, 2, 3, 4, 5, 6, 9, 10, 11, 12, 13, 14],
    ∃ p ∈ [(0x8#4, 0x0#4), (0x7#4, 0xF#4), (0x0#4, 0x0#4), (0x7#4, 0x7#4)], ∃ d ∈ [0x4#4, 0x5#4, 0x6#4, 0x7#4],
      IsMember ⟨d, p.1, p.2⟩ ∧ (encodeTriple ⟨d, p.1, p.2⟩).check.toNat = k := by
  decide

/-- Settles O26: the commands sum to one of six residues, and no channel completes any of them to 0, 1, 8 or 9. -/
theorem membersNeverOverflow : Obligations.MembersNeverOverflow := by
  refine ⟨fun c hc => ?_, fun k => ⟨?_, fun hk => ?_⟩⟩
  · obtain ⟨hlow, hhigh, hsum⟩ := isMember_sums hc
    have hcheck := encodeTriple_check_toNat c
    have hne : codeSum c % 16 ≠ 0 := by
      simp only [List.mem_cons, List.not_mem_nil, or_false] at hsum
      unfold codeSum
      omega
    have hsum4 : (encodeTriple c).sum4 ≠ 0#4 := fun h => hne (by rw [← encodeTriple_sum4_toNat, h]; rfl)
    exact ⟨(checkOverflows_eq c).trans (decide_eq_false hne), hsum4, by omega, by omega, hsum⟩
  · rintro ⟨c, hc, rfl⟩
    obtain ⟨hlow, hhigh, hsum⟩ := isMember_sums hc
    have hcheck := encodeTriple_check_toNat c
    simp only [List.mem_cons, List.not_mem_nil, or_false] at hsum ⊢
    unfold codeSum at hcheck
    omega
  · obtain ⟨p, -, d, -, hmember, hcheck⟩ := exists_member_of_check k hk
    exact ⟨_, hmember, hcheck⟩

/-! ### The bytes -/

/-- The bytes tell the triples apart, a check digit of 16 carried into the yellow nibble included (R103). -/
theorem eq_of_bytes_eq {c d : Triple} (h1 : (encodeTriple c).byte1 = (encodeTriple d).byte1)
    (h2 : (encodeTriple c).byte2 = (encodeTriple d).byte2) : c = d := by
  obtain ⟨hc1, hc2, -, -⟩ := bytePairIsAssembled c
  obtain ⟨hd1, hd2, -, -⟩ := bytePairIsAssembled d
  rw [h1] at hc1
  rw [h2] at hc2
  have hcheck : (encodeTriple c).check.toNat = (encodeTriple d).check.toNat := by
    have hc := encodeTriple_check_toNat c
    have hd := encodeTriple_check_toNat d
    omega
  have hch : c.ch = d.ch := BitVec.eq_of_toNat_eq (by omega)
  have horange : c.orange = d.orange := BitVec.eq_of_toNat_eq (by omega)
  have hyellow : c.yellow = d.yellow := BitVec.eq_of_toNat_eq (by omega)
  cases c
  cases d
  simp_all

/-- The sum of a byte's two hexadecimal digits. -/
def digitSum (b : Byte) : Nat := b.toNat / 16 + b.toNat % 16

/-- The sent digits sum to 0 modulo 16, or to 1 where the check digit 16 has carried (R103). -/
theorem digitSum_bytes (c : Triple) :
    (digitSum (encodeTriple c).byte1 + digitSum (encodeTriple c).byte2) % 16 =
      if (encodeTriple c).byte2.toNat % 16 = 0 then 1 else 0 := by
  obtain ⟨h1, -, hfits, hcarries⟩ := bytePairIsAssembled c
  have hcheck := encodeTriple_check_toNat c
  have hdigits1 : digitSum (encodeTriple c).byte1 = c.ch.toNat + c.orange.toNat := by
    unfold digitSum
    omega
  rw [hdigits1, digitSum]
  by_cases hchk : (encodeTriple c).check.toNat ≤ 15
  · have h2 := hfits hchk
    unfold codeSum at hcheck
    have hyellow : (encodeTriple c).byte2.toNat / 16 = c.yellow.toNat := by omega
    have hlow : (encodeTriple c).byte2.toNat % 16 = (encodeTriple c).check.toNat := by omega
    rw [hyellow, hlow, if_neg (by omega)]
    omega
  · obtain ⟨h2, hone⟩ := hcarries (by omega)
    rw [if_pos (by omega), ← hone]
    omega

end Sys2Proof.Machine
end

section
/-! SUPPORT. Bits of a byte: their number, their reversal and their parity (40_encode_datapath.md R105 to R108). -/

namespace Sys2Proof.Machine

/-! ### The set bits of a byte -/

/-- The number of set bits as a sum over the bits. -/
theorem popcount_eq (b : Byte) :
    popcount b = (b.getLsbD 0).toNat + (b.getLsbD 1).toNat + (b.getLsbD 2).toNat + (b.getLsbD 3).toNat +
      (b.getLsbD 4).toNat + (b.getLsbD 5).toNat + (b.getLsbD 6).toNat + (b.getLsbD 7).toNat := by
  have hone : ∀ a : Bool, a.toNat = if a then 1 else 0 := by decide
  rw [popcount, ← List.countP_eq_length_filter, show List.range 8 = [0, 1, 2, 3, 4, 5, 6, 7] from rfl]
  simp only [List.countP_cons, List.countP_nil, hone]
  omega

theorem popcount_rev8 (b : Byte) : popcount (rev8 b) = popcount b := by
  have hbit : ∀ i, i < 8 → (rev8 b).getLsbD i = b.getLsbD (7 - i) := fun _ => rev8_getLsbD b
  simp only [popcount_eq, hbit, Nat.reduceLT, Nat.reduceSub]
  omega

theorem rev8_rev8 (b : Byte) : rev8 (rev8 b) = b := by
  refine BitVec.eq_of_getLsbD_eq fun i hi => ?_
  rw [rev8_getLsbD _ hi, rev8_getLsbD _ (by omega), Nat.sub_sub_self (by omega)]

/-- Settles O27: the bit at each place after one reversal gives the reversal of the reversal and the count of bits. -/
theorem bytesAreReversed : Obligations.BytesAreReversed :=
  ⟨fun b => ⟨fun _ => rev8_getLsbD b, rev8_rev8 b, popcount_rev8 b⟩, by decide, by decide, by decide, by decide,
    by decide, by decide, by decide, fun _ _ hi => ⟨rev8_getLsbD _ hi, rev8_getLsbD _ hi⟩⟩

/-! ### Parity -/

theorem xor_toNat (a b : Bool) : (a ^^ b).toNat = (a.toNat + b.toNat) % 2 := by
  revert a b; decide

/-- The exclusive or of a byte's bits is their number modulo 2. -/
theorem xor8_toNat (r : Byte) : (xor8 r).toNat = popcount r % 2 := by
  simp only [xor8, xor_toNat, popcount_eq, ← BitVec.getLsbD_eq_getElem]
  omega

theorem popcount_add_oddParity (r : Byte) : (popcount r + (oddParity r).toNat) % 2 = 1 := by
  have hnot : (!xor8 r).toNat = 1 - (xor8 r).toNat := by cases xor8 r <;> rfl
  rw [oddParity, hnot, xor8_toNat]
  omega

/-- Settles O28: P1 and P2 are the odd parity of REV1 and REV2. -/
theorem framesHaveOddParity : Obligations.FramesHaveOddParity :=
  fun _ => ⟨popcount_add_oddParity _, popcount_add_oddParity _⟩

end Sys2Proof.Machine
end

section
/-! SUPPORT. What the durations of a message stand for: its runs, 208 microseconds a bit and the pause on the last
(40_encode_datapath.md R111 to R116). -/

namespace Sys2Proof.Machine

variable {m : List Bool} {ls init : List Nat} {last : Nat}

/-! ### The entries in microseconds -/

/-- The entries of the table for the run lengths `ls` that stand for a run, in microseconds. -/
def runDurations (ls : List Nat) : List Nat :=
  ((durationTable ls).toList.take ls.length).map fun d => d.toNat

theorem lut_toNat {len : Nat} (h : len ≤ 23) : (lut len).toNat = len * 208 := by
  rw [lut, Config.bitLength, BitVec.toNat_ofNat, Nat.mod_eq_of_lt (by omega)]

/-- An entry is its run's length at 208 a bit, the pause added to the last (R113). -/
theorem durationEntry_toNat {i : Nat} (hsum : ls.sum ≤ 23) (hi : i < ls.length) :
    (durationEntry ls i).toNat = ls[i] * 208 + if i + 1 = ls.length then 208 else 0 := by
  have h23 : ls[i] ≤ 23 := (List.le_sum_of_mem (List.getElem_mem hi)).trans hsum
  unfold durationEntry
  rw [List.getD_eq_getElem _ _ hi]
  split
  · rw [if_neg (by omega), lut_toNat h23, Nat.add_zero]
  · have hlast : i + 1 = ls.length := by omega
    have hlut := lut_toNat h23
    have hpause : (BitVec.ofNat 16 Config.pause).toNat = 208 := rfl
    rw [if_pos hlast, if_pos hlast, BitVec.toNat_add_of_lt (by rw [hlut, hpause]; omega), hlut, hpause]

theorem getElem_durationTable {i : Nat} (hi : i < 23) : (durationTable ls)[i] = durationEntry ls i := by
  simp [durationTable]

/-- Every run's duration is 208 a bit, and the last run's is one bit's more. -/
theorem runDurations_concat (hlen : (init ++ [last]).length ≤ 23) (hsum : (init ++ [last]).sum ≤ 23) :
    runDurations (init ++ [last]) = init.map (· * 208) ++ [last * 208 + 208] := by
  refine List.ext_getElem ?_ fun i hi hi' => ?_
  · simpa [runDurations] using hlen
  · have hi : i < (init ++ [last]).length := by simpa using hi'
    have hentry : (runDurations (init ++ [last]))[i] = (durationEntry (init ++ [last]) i).toNat := by
      simp [runDurations, durationTable]
    rw [hentry, durationEntry_toNat hsum hi]
    by_cases hinit : i < init.length
    · simp [hinit, hinit.ne]
    · have hlast : i = init.length := by simp at hi; omega
      simp [hlast]

/-! ### The runs of a message -/

/-- A message has at most as many runs as bits, since none is empty (R111). -/
theorem length_runs_le (m : List Bool) : (runs m).length ≤ m.length :=
  (List.length_le_sum_of_one_le _ (runs_pos m)).trans_eq (runs_sum m)

/-- The runs of a message that is not empty end in a last one. -/
theorem exists_runs_eq_concat (h : m ≠ []) : ∃ init last, runs m = init ++ [last] :=
  ⟨_, _, (List.dropLast_concat_getLast (runs_ne_nil h)).symm⟩

theorem runDurations_of_runs (hm : m.length ≤ 23) (hr : runs m = init ++ [last]) :
    runDurations (runs m) = init.map (· * 208) ++ [last * 208 + 208] := by
  have hlen := length_runs_le m
  have hsum := runs_sum m
  rw [hr] at hlen hsum ⊢
  exact runDurations_concat (hlen.trans hm) (hsum.trans_le hm)

/-- Runs spelled out in alternation from the first bit are the message (R111, R116). -/
theorem bitsOfDurations_runsFrom (b : Bool) (k : Nat) (m : List Bool) :
    bitsOfDurations b ((runsFrom b k m).map (· * 208)) = List.replicate k b ++ m := by
  induction m generalizing b k with
  | nil => simp [runsFrom, bitsOfDurations]
  | cons c m ih =>
    by_cases hc : c = b
    · rw [runsFrom, if_pos hc, ih, hc, List.replicate_succ', List.append_assoc, List.singleton_append]
    · have hnot : (!b) = c := by cases b <;> cases c <;> simp_all
      rw [runsFrom, if_neg hc, List.map_cons, bitsOfDurations, hnot, ih,
        Nat.mul_div_cancel _ (by decide), List.replicate_one, List.singleton_append]

theorem bitsOfDurations_runs (h : m.head? = some false) : bitsOfDurations false ((runs m).map (· * 208)) = m := by
  obtain ⟨t, rfl⟩ := List.head?_eq_some_iff.1 h
  exact bitsOfDurations_runsFrom false 1 t

theorem runCount_toNat (h : ls.length < 32) : (runCount ls).toNat = ls.length := by
  rw [runCount, BitVec.toNat_ofNat, Nat.mod_eq_of_lt h]

theorem durationTable_past {i : Nat} (hi : i < 23) (h : ls.length ≤ i) : (durationTable ls)[i] = 0#16 := by
  rw [getElem_durationTable hi, durationEntry, if_neg (by omega), if_neg (by omega)]
  rfl

/-- Settles O30: with the pause taken off the last entry every entry is 208 times its run, and the runs spelled out
are the message. -/
theorem durationsStandForTheMessage : Obligations.DurationsStandForTheMessage := by
  intro m hm hhead n ds
  have hne : m ≠ [] := by rintro rfl; simp at hhead
  have h1 : 1 ≤ n := List.length_pos_iff.2 (runs_ne_nil hne)
  have h23 : n ≤ 23 := (length_runs_le m).trans_eq hm
  obtain ⟨init, last, hr⟩ := exists_runs_eq_concat hne
  have hds : ds = init.map (· * 208) ++ [last * 208 + 208] := runDurations_of_runs hm.le hr
  have hless : ds.dropLast ++ [ds.getLastD 0 - 208] = (runs m).map (· * 208) := by
    simp [hds, hr]
  refine ⟨h1, h23, runCount_toNat (by omega), ?_, fun i hi => durationTable_past i.isLt hi⟩
  rw [hless, bitsOfDurations_runs hhead]

/-! ### The durations of a triple -/

theorem heldDurations_encodeTriple (c : Triple) :
    heldDurations (encodeTriple c) = runDurations (runs (messageOf c.ch c.orange c.yellow)) := by
  rw [heldDurations, encodeTriple_runcnt_toNat]
  rfl

theorem heldDurations_of_runs {c : Triple} (hr : runs (messageOf c.ch c.orange c.yellow) = init ++ [last]) :
    heldDurations (encodeTriple c) = init.map (· * 208) ++ [last * 208 + 208] := by
  rw [heldDurations_encodeTriple]
  exact runDurations_of_runs (messageOf_length _ _ _).le hr

theorem exists_runs_messageOf (c o y : Nibble) : ∃ init last, runs (messageOf c o y) = init ++ [last] :=
  exists_runs_eq_concat (by simp [messageOf, message, frame])

/-- Settles O31: the runs of the message add up to its 23 bits, and the pause comes on top. -/
theorem durationsSumToTheAirTime : Obligations.DurationsSumToTheAirTime := by
  intro c
  obtain ⟨init, last, hr⟩ := exists_runs_messageOf c.ch c.orange c.yellow
  have hbits : init.sum + last = 23 := by
    have hsum := runs_sum (messageOf c.ch c.orange c.yellow)
    rwa [hr, List.sum_append, List.sum_singleton, messageOf_length] at hsum
  have hmap : (init.map (· * 208)).sum = init.sum * 208 := by
    rw [List.sum_map_mul_right, List.map_id']
  rw [heldDurations_of_runs hr, List.sum_append, List.sum_singleton, hmap]
  omega

end Sys2Proof.Machine
end

section
/-! SUPPORT. The bounds on the run lengths over every triple (40_encode_datapath.md R114): the run count of a message is
the sum of its two frames', each frame's is even and at most 10, and the check digit keeps the extremes apart. -/

namespace Sys2Proof.Machine

/-! ### The number and the length of runs -/

/-- The run count is odd when the last bit is the first, for the runs alternate (R111). -/
theorem runsFrom_length_mod_two (b : Bool) (k : Nat) (m : List Bool) :
    (runsFrom b k m).length % 2 = if m.getLastD b = b then 1 else 0 := by
  induction m generalizing b k with
  | nil => simp [runsFrom]
  | cons c m ih =>
    rw [List.getLastD_cons]
    by_cases hc : c = b
    · rw [runsFrom, if_pos hc, ih, hc]
    · have hnot : m.getLastD c = b ↔ m.getLastD c ≠ c :=
        ⟨fun he => he ▸ Ne.symm hc, fun he => (Bool.eq_not.2 he).trans (Bool.eq_not.2 (Ne.symm hc)).symm⟩
      rw [runsFrom, if_neg hc, List.length_cons, Nat.add_mod, ih]
      by_cases he : m.getLastD c = c
      · rw [if_pos he, if_neg (fun hb => hnot.1 hb he)]
      · rw [if_neg he, if_pos (hnot.2 he)]

/-- One more bit that repeats the last makes no new run. -/
theorem runsFrom_concat_length (b : Bool) (k : Nat) (m : List Bool) :
    (runsFrom b k (m ++ [m.getLastD b])).length = (runsFrom b k m).length := by
  induction m generalizing b k with
  | nil => simp [runsFrom]
  | cons c m ih =>
    rw [List.getLastD_cons, List.cons_append]
    by_cases hc : c = b
    · rw [runsFrom, runsFrom, if_pos hc, if_pos hc, hc, ih]
    · rw [runsFrom, runsFrom, if_neg hc, if_neg hc, List.length_cons, ih, List.length_cons]

/-- A run leaves at least one bit to each other run. -/
theorem run_add_length_le {m : List Bool} {l : Nat} (hl : l ∈ runs m) : l + (runs m).length ≤ m.length + 1 := by
  obtain ⟨before, after, hr⟩ := List.append_of_mem hl
  have hpos : ∀ k ∈ before ++ l :: after, 1 ≤ k := hr ▸ runs_pos m
  have hbefore := List.length_le_sum_of_one_le before fun k hk => hpos k (by simp [hk])
  have hafter := List.length_le_sum_of_one_le after fun k hk => hpos k (by simp [hk])
  have hsum := runs_sum m
  rw [hr, List.sum_append, List.sum_cons] at hsum
  rw [hr, List.length_append, List.length_cons]
  omega

/-! ### The runs of one frame -/

/-- The frame of a byte, with the byte's own parity bit (R109). -/
def byteFrame (b : Byte) : List Bool := frame (rev8 b) (oddParity (rev8 b))

theorem byteFrame_length (b : Byte) : (byteFrame b).length = 11 := rfl

/-- The runs of a triple's message are those of byte1's frame with the separator, then those of byte2's frame. -/
theorem runs_messageOf (c : Triple) :
    runs (messageOf c.ch c.orange c.yellow) =
      runs (byteFrame (encodeTriple c).byte1 ++ [true]) ++ runs (byteFrame (encodeTriple c).byte2) :=
  runs_message _ _ _ _

/-- The separator repeats the stop bit, so it begins no run. -/
theorem byteFrame_separator_length (b : Byte) :
    (runs (byteFrame b ++ [true])).length = (runs (byteFrame b)).length :=
  runsFrom_concat_length false 1 (byteFrame b).tail

/-- A frame begins with `0` and ends with `1`, so its run count is even; its 11 bits make it 2 to 10. -/
theorem byteFrame_runs_length (b : Byte) :
    (runs (byteFrame b)).length % 2 = 0 ∧ 2 ≤ (runs (byteFrame b)).length ∧ (runs (byteFrame b)).length ≤ 10 := by
  have heven : (runs (byteFrame b)).length % 2 = 0 := runsFrom_length_mod_two false 1 (byteFrame b).tail
  have hpos : 0 < (runs (byteFrame b)).length := List.length_pos_iff.2 (runsFrom_ne_nil false 1 (byteFrame b).tail)
  have hle := length_runs_le (byteFrame b)
  rw [byteFrame_length] at hle
  omega

/-- The bytes whose frame is one run of `0`s and one of `1`s. -/
def twoRunBytes : List Byte := [0x00, 0xC0, 0xF0, 0xFC, 0xFF]

/-- The bytes whose frame has 10 runs: the frame's bits alternate but for one repetition. -/
def tenRunBytes : List Byte := [0x55, 0xAB, 0xAD, 0xB5, 0xD5]

theorem extreme_byteFrames : ∀ b : Byte,
    ((runs (byteFrame b)).length = 2 → b ∈ twoRunBytes) ∧ ((runs (byteFrame b)).length = 10 → b ∈ tenRunBytes) := by
  decide +kernel

/-! ### The bounds over every triple -/

/-- The run count is that of the two frames (R112). -/
theorem encodeTriple_runcnt_eq (c : Triple) :
    (encodeTriple c).runcnt.toNat =
      (runs (byteFrame (encodeTriple c).byte1)).length + (runs (byteFrame (encodeTriple c).byte2)).length := by
  rw [encodeTriple_runcnt_toNat, runs_messageOf, List.length_append, byteFrame_separator_length]

/-- No two frames of two runs each make a message: their digits do not sum as a check digit makes them. -/
theorem four_lt_runcnt (c : Triple) : 4 < (encodeTriple c).runcnt.toNat := by
  have hsplit := encodeTriple_runcnt_eq c
  obtain ⟨-, hmin1, -⟩ := byteFrame_runs_length (encodeTriple c).byte1
  obtain ⟨-, hmin2, -⟩ := byteFrame_runs_length (encodeTriple c).byte2
  by_contra hle
  have h1 := (extreme_byteFrames (encodeTriple c).byte1).1 (by omega)
  have h2 := (extreme_byteFrames (encodeTriple c).byte2).1 (by omega)
  have hnone : ∀ b ∈ twoRunBytes, ∀ d ∈ twoRunBytes,
      (digitSum b + digitSum d) % 16 ≠ if d.toNat % 16 = 0 then 1 else 0 := by decide
  exact hnone _ h1 _ h2 (digitSum_bytes c)

/-- Of the pairs of frames of ten runs each, the check digit leaves one. -/
theorem runcnt_eq_twenty_iff (c : Triple) : (encodeTriple c).runcnt.toNat = 20 ↔ c = ⟨0xB#4, 0x5#4, 0xB#4⟩ := by
  refine ⟨fun h => ?_, fun h => h ▸ by decide⟩
  have hsplit := encodeTriple_runcnt_eq c
  obtain ⟨-, -, hmax1⟩ := byteFrame_runs_length (encodeTriple c).byte1
  obtain ⟨-, -, hmax2⟩ := byteFrame_runs_length (encodeTriple c).byte2
  have h1 := (extreme_byteFrames (encodeTriple c).byte1).2 (by omega)
  have h2 := (extreme_byteFrames (encodeTriple c).byte2).2 (by omega)
  have hone : ∀ b ∈ tenRunBytes, ∀ d ∈ tenRunBytes,
      ((digitSum b + digitSum d) % 16 = if d.toNat % 16 = 0 then 1 else 0) → b = 0xB5#8 ∧ d = 0xB5#8 := by decide
  obtain ⟨hbyte1, hbyte2⟩ := hone _ h1 _ h2 (digitSum_bytes c)
  exact eq_of_bytes_eq (hbyte1.trans (by decide)) (hbyte2.trans (by decide))

theorem runcnt_bounds (c : Triple) :
    (encodeTriple c).runcnt.toNat % 2 = 0 ∧ 6 ≤ (encodeTriple c).runcnt.toNat ∧
      (encodeTriple c).runcnt.toNat ≤ 20 := by
  have hsplit := encodeTriple_runcnt_eq c
  have hmin := four_lt_runcnt c
  obtain ⟨heven1, -, hmax1⟩ := byteFrame_runs_length (encodeTriple c).byte1
  obtain ⟨heven2, -, hmax2⟩ := byteFrame_runs_length (encodeTriple c).byte2
  omega

/-- Each frame has two runs, so none of them fills its frame: 12 bits with the separator, 11 without. -/
theorem exists_runs_messageOf_le (c : Triple) :
    ∃ init last, runs (messageOf c.ch c.orange c.yellow) = init ++ [last] ∧
      (∀ l ∈ init, 1 ≤ l ∧ l ≤ 11) ∧ 1 ≤ last ∧ last ≤ 10 := by
  obtain ⟨-, hmin1, -⟩ := byteFrame_runs_length (encodeTriple c).byte1
  obtain ⟨-, hmin2, -⟩ := byteFrame_runs_length (encodeTriple c).byte2
  have hframe1 : ∀ l ∈ runs (byteFrame (encodeTriple c).byte1 ++ [true]), l ≤ 11 := fun l hl => by
    have hle := run_add_length_le hl
    rw [byteFrame_separator_length, List.length_append, byteFrame_length, List.length_singleton] at hle
    omega
  have hframe2 : ∀ l ∈ runs (byteFrame (encodeTriple c).byte2), l ≤ 10 := fun l hl => by
    have hle := run_add_length_le hl
    rw [byteFrame_length] at hle
    omega
  obtain ⟨init, last, hr⟩ := exists_runs_eq_concat (m := byteFrame (encodeTriple c).byte2) (by simp [byteFrame, frame])
  have hsplit := runs_messageOf c
  rw [hr] at hframe2 hsplit
  have hpos := runs_pos (messageOf c.ch c.orange c.yellow)
  rw [hsplit] at hpos
  refine ⟨_ ++ init, last, by rw [hsplit, List.append_assoc], fun l hl => ⟨?_, ?_⟩, ?_, ?_⟩
  · exact hpos l (by simp only [List.mem_append] at hl ⊢; tauto)
  · obtain hl | hl := List.mem_append.1 hl
    · exact hframe1 l hl
    · exact (hframe2 l (List.mem_append_left _ hl)).trans (by decide)
  · exact hpos last (by simp)
  · exact hframe2 last (by simp)

/-- A run of 1 to 11 bits lasts 208 to 2288 microseconds; so does a last run of 1 to 10 with its pause (R113). -/
theorem heldDurations_bounds {c : Triple} {d : Nat} (hd : d ∈ heldDurations (encodeTriple c)) :
    d % 208 = 0 ∧ 208 ≤ d ∧ d ≤ 2288 := by
  obtain ⟨init, last, hr, hinit, h1, h10⟩ := exists_runs_messageOf_le c
  rw [heldDurations_of_runs hr] at hd
  obtain hd | hd := List.mem_append.1 hd
  · obtain ⟨l, hl, rfl⟩ := List.mem_map.1 hd
    have hbounds := hinit l hl
    omega
  · rw [List.mem_singleton.1 hd]
    omega

/-- The runs of the 64 member triples. -/
theorem runs_members : ∀ c ∈ [0x4#4, 0x5#4, 0x6#4, 0x7#4], ∀ o ∈ [0x0#4, 0x7#4, 0x8#4, 0xF#4],
    ∀ y ∈ [0x0#4, 0x7#4, 0x8#4, 0xF#4],
      (runs (messageOf c o y)).length ∈ [8, 10, 12, 14] ∧ ∀ l ∈ runs (messageOf c o y), l ≤ 8 := by
  decide +kernel

/-- With byte1 0xFF the first frame is its start bit and 11 `1`s up to the separator. -/
theorem eleven_mem_runs (y : Nibble) : 11 ∈ runs (messageOf 0xF#4 0xF#4 y) := by
  have hbyte1 : (encodeTriple ⟨0xF#4, 0xF#4, y⟩).byte1 = 0xFF#8 := show assembleByte1 0xF#4 0xF#4 = 0xFF#8 by decide
  rw [runs_messageOf ⟨0xF#4, 0xF#4, y⟩, hbyte1]
  exact List.mem_append_left _ (by decide)

/-- Settles O32: each frame's run count and run lengths are bounded by its bits, and the check digit keeps two frames
of two runs, and all but one pair of frames of ten, from standing in one message. -/
theorem runLengthBoundsHold : Obligations.RunLengthBoundsHold := by
  refine ⟨fun c => ?_, by decide, eleven_mem_runs, ⟨⟨0x0, 0x2, 0xF⟩, by decide⟩, ⟨⟨0x5, 0x0, 0xF⟩, by decide⟩,
    ⟨⟨0xF, 0xF, 0x0⟩, by decide⟩⟩
  intro n ls
  obtain ⟨heven, hmin, hmax⟩ := runcnt_bounds c
  obtain ⟨init, last, hr, hinit, -, h10⟩ := exists_runs_messageOf_le c
  have hlast : ls.getLastD 0 = last := by simp [ls, hr]
  refine ⟨heven, hmin, hmax, runcnt_eq_twenty_iff c, fun _ => heldDurations_bounds, fun l hl => ?_,
    hlast.trans_le h10, fun hc => ?_⟩
  · rw [show ls = init ++ [last] from hr, List.mem_append, List.mem_singleton] at hl
    obtain hl | rfl := hl
    · exact (hinit l hl).2
    · omega
  · obtain ⟨hch, horange, hyellow⟩ := hc
    have hn : n = ls.length := encodeTriple_runcnt_toNat c
    rw [hn]
    exact runs_members _ hch _ horange _ hyellow

end Sys2Proof.Machine
end

section
/-! SUPPORT. What a completed ENCODE stores (42_commands.md R152). -/

namespace Sys2Proof.Machine

/-- While idle, and with a member triple where STRICT is set, ENCODE completes (R152). -/
theorem exec_encode {s : State} (hb : s.status.sbusy = false) (hc : s.ctrl.strict = false ∨ IsMember s.inp) :
    exec .encode s = .next (storeResults (encodeTriple s.inp) (checkOverflows s.inp) (hasNonMember s.inp) s) := by
  have hpass : (s.ctrl.strict && hasNonMember s.inp) = false := by
    rw [Bool.and_eq_false_iff, hasNonMember_eq_false_iff]
    exact hc
  simp [exec, execEncode, hb, hpass]

/-- Settles O33: what ENCODE stores is computed from the triple alone. -/
theorem encodeDependsOnTheTripleAlone : Obligations.EncodeDependsOnTheTripleAlone := by
  intro s t hinp hs ht hcs hct
  exact ⟨_, _, exec_encode hs hcs, exec_encode ht hct, congrArg encodeTriple hinp, congrArg checkOverflows hinp,
    congrArg hasNonMember hinp⟩

end Sys2Proof.Machine
end

section
/-! SUPPORT. One serializer step, case by case (41_serializer.md R130, R132), and the ticks of one entry. -/

namespace Sys2Proof.Machine

variable {p : Pins} {s : State}

theorem hostAccess_of_not_sel (hs : p.busSel = false) : hostAccess p s = .next (respondNone s) := by
  simp [hostAccess, hs]

/-- Settles O11: the access writes the response lines only, and a tick while idle does nothing. -/
theorem idleMachineWaitsForTheHost : Obligations.IdleMachineWaitsForTheHost := by
  intro p s hr hs hb
  have hcycle : cycle p s = .next (respondNone s) := by
    simp [cycle, hr, hostAccess_of_not_sel hs, tick_of_idle (s := respondNone s) hb]
  exact ⟨_, _, _, hcycle⟩

/-! ### A tick while busy -/

/-- Short of the entry's last microsecond REM counts down. -/
theorem tick_of_two_le (hb : s.status.sbusy = true) (hr : 2 ≤ s.ser.rem.toNat) :
    tick s = .next (countDown (s.ser.rem - 1#16) s) := by
  have hne : s.ser.rem - 1#16 ≠ 0#16 := by bv_omega
  simp [tick, hb, hne]

/-- The last entry's last microsecond ends the frame. -/
theorem tick_of_last_entry (hb : s.status.sbusy = true) (hr : s.ser.rem = 1#16)
    (hi : s.ser.idx.toNat + 1 = s.res.runcnt.toNat) : tick s = .next (finishFrame s) := by
  simp [tick, hb, hr, hi]

/-- Another entry's last microsecond makes the next entry current. -/
theorem tick_of_not_last_entry (hb : s.status.sbusy = true) (hr : s.ser.rem = 1#16)
    (hi : s.ser.idx.toNat + 1 ≠ s.res.runcnt.toNat) (h23 : s.ser.idx.toNat + 1 < 23) :
    tick s = .next (enterEntry (s.ser.idx + 1#5) s.res.dur[s.ser.idx.toNat + 1] s) := by
  have hidx : (s.ser.idx + 1#5).toNat = s.ser.idx.toNat + 1 := by bv_omega
  have hd : s.res.dur[(s.ser.idx + 1#5).toNat]? = some s.res.dur[s.ser.idx.toNat + 1] := by
    rw [hidx, Vector.getElem?_eq_getElem h23]
  simp [tick, hb, hr, hi, hd, -BitVec.toNat_add]

/-- What the invariant says of a busy machine's position (10_state.md R32, 40_encode_datapath.md R114). -/
theorem Inv.busy_bounds (h : Inv s) (hb : s.status.sbusy = true) :
    1 ≤ s.ser.rem.toNat ∧ s.ser.idx.toNat + 1 ≤ s.res.runcnt.toNat ∧ s.res.runcnt.toNat ≤ 20 := by
  obtain ⟨hv, hi, hr, -, -⟩ := (serializerOk_of_busy hb).1 h.serializer
  obtain ⟨c, hc⟩ := h.res_eq_encodeTriple hv
  obtain ⟨-, -, hmax⟩ := runcnt_bounds c
  exact ⟨hr, hi, hc ▸ hmax⟩

/-! ### The ticks of one entry -/

theorem cycle_tickPins (s : State) : cycle tickPins s = tick (respondNone s) := rfl

/-- Fewer ticks than REM only count it down. -/
theorem runTicks_of_lt_rem (k : Nat) (hb : s.status.sbusy = true) (hk : k < s.ser.rem.toNat) :
    ∃ e d n, runTicks k s = .next (withResponse e d n (countDown (BitVec.ofNat 16 (s.ser.rem.toNat - k)) s)) := by
  induction k generalizing s with
  | zero =>
    refine ⟨s.busErr, s.busRdata, s.freeCount, ?_⟩
    rw [Nat.sub_zero, BitVec.ofNat_toNat, BitVec.setWidth_eq]
    rfl
  | succ k ih =>
    have hcycle := (cycle_tickPins s).trans (tick_of_two_le hb (by simp only [respondNone_ser]; omega))
    have hrem : (s.ser.rem - 1#16).toNat = s.ser.rem.toNat - 1 := by bv_omega
    obtain ⟨e, d, n, hrun⟩ := ih (s := countDown (s.ser.rem - 1#16) (respondNone s)) hb
      (by simp only [countDown_ser]; omega)
    refine ⟨e, d, n, (runTicks_succ k hcycle).trans (hrun.trans ?_)⟩
    simp only [countDown_ser, hrem, Nat.sub_sub, Nat.add_comm 1 k]
    rfl

/-- Settles O34: each clause is the tick's case, and an entry's ticks count its REM down. -/
theorem tickFollowsItsRule : Obligations.TickFollowsItsRule := by
  refine ⟨fun s => ⟨tick_of_idle, fun hb hr => ?_, tick_of_last_entry, fun h23 hb hr hi => ?_, Inv.busy_bounds⟩,
    fun s k hb hk => runTicks_of_lt_rem k hb hk⟩
  · have hrem : BitVec.ofNat 16 (s.ser.rem.toNat - 1) = s.ser.rem - 1#16 := by bv_omega
    rw [hrem]
    exact tick_of_two_le hb hr
  · have hidx : BitVec.ofNat 5 (s.ser.idx.toNat + 1) = s.ser.idx + 1#5 := by bv_omega
    rw [hidx]
    exact tick_of_not_last_entry hb hr hi h23

end Sys2Proof.Machine
end

section
/-! SUPPORT. A send under way, by the ticks since its start: what a cycle short of ABORT and reset makes of it, and how
it ends (41_serializer.md R131 to R135, R138). -/

namespace Sys2Proof.Machine

variable {p : Pins} {s t u s₀ : State} {c : Triple} {k i : Nat}

/-! ### The time at which an entry begins -/

/-- The entries before entry `i` last as long as their runs' bits; past the last entry comes the pause (R113). -/
theorem sum_take_heldDurations (hi : i ≤ (encodeTriple c).runcnt.toNat) :
    ((heldDurations (encodeTriple c)).take i).sum =
      ((runs (messageOf c.ch c.orange c.yellow)).take i).sum * 208 +
        if i = (encodeTriple c).runcnt.toNat then 208 else 0 := by
  obtain ⟨init, last, hr⟩ := exists_runs_messageOf c.ch c.orange c.yellow
  rw [encodeTriple_runcnt_toNat] at hi ⊢
  rw [heldDurations_of_runs hr]
  rw [hr] at hi ⊢
  by_cases hlast : i = (init ++ [last]).length
  · rw [if_pos hlast, List.take_of_length_le (by simpa using hlast.ge), List.take_of_length_le hlast.ge]
    simp only [List.sum_append, List.sum_singleton, List.sum_map_mul_right, List.map_id']
    omega
  · have hinit : i ≤ init.length := by simp only [List.length_append, List.length_singleton] at hi hlast; omega
    rw [if_neg hlast, List.take_append_of_le_length (by simpa using hinit), List.take_append_of_le_length hinit,
      ← List.map_take, List.sum_map_mul_right, List.map_id', Nat.add_zero]

theorem sum_take_runs_le (c : Triple) (i : Nat) : ((runs (messageOf c.ch c.orange c.yellow)).take i).sum ≤ 23 := by
  have hsum := List.sum_take_add_sum_drop (runs (messageOf c.ch c.orange c.yellow)) i
  rw [runs_sum, messageOf_length] at hsum
  omega

/-- An entry lasts its duration (R132). -/
theorem sum_take_heldDurations_succ {r : Results} (hi : i < r.runcnt.toNat) (h23 : i < 23) :
    ((heldDurations r).take (i + 1)).sum = ((heldDurations r).take i).sum + r.dur[i].toNat := by
  have hlen : i < (heldDurations r).length := by simp [heldDurations]; omega
  rw [List.sum_take_succ _ _ hlen]
  simp [heldDurations]

section
variable (h : Inv s) (hv : s.status.valid = true)
include h hv

/-- The durations sum to the air time (R135). -/
theorem Inv.sum_heldDurations : (heldDurations s.res).sum = 4992 := by
  obtain ⟨c, hc⟩ := h.res_eq_encodeTriple hv
  rw [hc]
  exact durationsSumToTheAirTime c

/-- All entries together last the air time. -/
theorem Inv.sum_take_runcnt : ((heldDurations s.res).take s.res.runcnt.toNat).sum = 4992 := by
  have hlen : (heldDurations s.res).length ≤ s.res.runcnt.toNat := by simp [heldDurations]
  rw [List.take_of_length_le hlen, h.sum_heldDurations hv]

/-- No entry begins after the message's 23 bits. -/
theorem Inv.sum_take_le (hi : i < s.res.runcnt.toNat) : ((heldDurations s.res).take i).sum ≤ 4784 := by
  obtain ⟨c, hc⟩ := h.res_eq_encodeTriple hv
  rw [hc] at hi ⊢
  have hle := sum_take_runs_le c i
  rw [sum_take_heldDurations hi.le, if_neg hi.ne]
  omega

end

/-! ### A send under way -/

/-- The state holds a result and can send it. -/
structure Sendable (s : State) : Prop where
  inv : Inv s
  valid : s.status.valid = true
  idle : s.status.sbusy = false

/-- `s` is `k` ticks into the frame that a SEND from `s₀` began: with REM more the current entry ends. SDONE is not
newly set. -/
structure Sending (s₀ : State) (k : Nat) (s : State) : Prop where
  inv : Inv s
  busy : s.status.sbusy = true
  res : s.res = s₀.res
  sdone : s.status.sdone = true → s₀.status.sdone = true
  elapsed : k + s.ser.rem.toNat = ((heldDurations s.res).take (s.ser.idx.toNat + 1)).sum

theorem Sendable.exec_send (h : Sendable s) : exec .send s = .next (startSerializer s) := by
  simp [exec, execSend, h.idle, h.valid]

/-- A SEND begins entry 0 at tick 0 (R131). -/
theorem Sendable.sending (h : Sendable s) : Sending s 0 (startSerializer s) where
  inv := ⟨h.inv.results, h.inv.serializerOk_startSerializer h.valid, h.inv.error⟩
  busy := rfl
  res := rfl
  sdone := id
  elapsed := by
    have hsum := sum_take_heldDurations_succ (r := s.res) (h.inv.runcnt_pos h.valid) (by decide)
    rw [List.take_zero, List.sum_nil] at hsum
    exact hsum.symm

theorem Sending.valid (h : Sending s₀ k s) : s.status.valid = true :=
  ((serializerOk_of_busy h.busy).1 h.inv.serializer).1

/-- Tick `k` lies in the current entry. -/
theorem Sending.entry (h : Sending s₀ k s) :
    s.ser.idx.toNat < s.res.runcnt.toNat ∧ s.ser.idx.toNat < 23 ∧
      ((heldDurations s.res).take s.ser.idx.toNat).sum ≤ k ∧
      k < ((heldDurations s.res).take (s.ser.idx.toNat + 1)).sum := by
  obtain ⟨hv, hi, hpos, hle, -⟩ := (serializerOk_of_busy h.busy).1 h.inv.serializer
  have h23 := hi.trans_le (h.inv.runcnt_le hv)
  rw [dur_toList_getD _ h23] at hle
  have hsucc := sum_take_heldDurations_succ hi h23
  have hel := h.elapsed
  exact ⟨hi, h23, by omega, by omega⟩

/-- The last entry ends with the air time. -/
theorem Sending.elapsed_of_last_entry (h : Sending s₀ k s) (hlast : s.ser.idx.toNat + 1 = s.res.runcnt.toNat) :
    k + s.ser.rem.toNat = 4992 := by
  rw [h.elapsed, hlast, h.inv.sum_take_runcnt h.valid]

/-- From the pause on the last entry is current: every other ends before (R113). -/
theorem Sending.last_entry (h : Sending s₀ k s) (hk : 4784 ≤ k) : s.ser.idx.toNat + 1 = s.res.runcnt.toNat := by
  obtain ⟨hi, -, -, hlt⟩ := h.entry
  by_contra hne
  have hle := h.inv.sum_take_le h.valid (i := s.ser.idx.toNat + 1) (by omega)
  omega

/-! ### The tick of a send -/

/-- A tick before the last takes the frame one microsecond further. -/
theorem Sending.tick (h : Sending s₀ k s) (hk : k + 1 < 4992) : ∃ t, tick s = .next t ∧ Sending s₀ (k + 1) t := by
  have hlast := h.elapsed_of_last_entry
  have hel := h.elapsed
  obtain ⟨hpos, hle, hmax⟩ := h.inv.busy_bounds h.busy
  by_cases hr : s.ser.rem = 1#16
  · have hone : s.ser.rem.toNat = 1 := congrArg BitVec.toNat hr
    have hi : s.ser.idx.toNat + 1 ≠ s.res.runcnt.toNat := by omega
    have h23 : s.ser.idx.toNat + 1 < 23 := by omega
    have hidx : (s.ser.idx + 1#5).toNat = s.ser.idx.toNat + 1 := by bv_omega
    have hser := h.inv.serializerOk_enterEntry h.busy hi
      (by rw [hidx]; exact Vector.getElem?_eq_getElem h23)
    refine ⟨_, tick_of_not_last_entry h.busy hr hi h23,
      ⟨h.inv.results, hser, h.inv.error⟩, h.busy, h.res, h.sdone, ?_⟩
    simp only [enterEntry_ser, enterEntry_res, hidx]
    rw [sum_take_heldDurations_succ (by omega) h23]
    omega
  · have hrem : 2 ≤ s.ser.rem.toNat ∧ (s.ser.rem - 1#16).toNat = s.ser.rem.toNat - 1 := by bv_omega
    refine ⟨_, tick_of_two_le h.busy hrem.1,
      ⟨h.inv.results, serializerOk_countDown h.inv.serializer h.busy hr, h.inv.error⟩, h.busy, h.res, h.sdone, ?_⟩
    simp only [countDown_ser, countDown_res]
    omega

/-- The 4992nd tick ends the frame. -/
theorem Sending.tick_last (h : Sending s₀ 4991 s) : Machine.tick s = .next (finishFrame s) := by
  have hlast := h.last_entry (by decide)
  have hrem := h.elapsed_of_last_entry hlast
  exact tick_of_last_entry h.busy (by bv_omega) hlast

/-- The frame's end leaves the result held (R138). -/
theorem Sending.finishFrame (h : Sending s₀ k s) : Sendable (finishFrame s) where
  inv := ⟨h.inv.results, (serializerOk_of_idle rfl).2 rfl, h.inv.error⟩
  valid := h.valid
  idle := rfl

/-! ### The cycles of a send -/

/-- No access but an ABORT touches a send. -/
theorem Sending.hostEffect (h : Sending s₀ k s) (hp : ¬ Writes p 0x08#8 0x00000003#32) (hu : HostEffect p s u) :
    Sending s₀ k u := by
  have hbusy : u.status.sbusy = true := by
    by_contra hidle
    exact hp (hu.sbusy.fall h.busy (Bool.eq_false_iff.2 hidle))
  obtain ⟨-, habort⟩ | ⟨hser, hres⟩ := hu.of_busy h.busy
  · exact absurd habort hp
  refine ⟨h.inv.hostEffect hu, hbusy, hres.trans h.res, fun hd => ?_, ?_⟩
  · by_contra hs
    exact hu.sdone.rise (Bool.eq_false_iff.2 fun hs' => hs (h.sdone hs')) hd
  · rw [hser, hres]
    exact h.elapsed

/-- A cycle short of ABORT and reset is the tick, if it brings one, of a state as far into the frame. -/
theorem Sending.cycle_eq (h : Sending s₀ k s) (hp : LeavesSendRunning p) :
    ∃ t, cycle p s = (if p.usTick then Machine.tick t else .next t) ∧ Sending s₀ k t := by
  obtain ⟨hr, hp⟩ := hp
  obtain ⟨hr', -⟩ | ⟨-, t, ht, hc⟩ := cycle_effect p s
  · simp [hr] at hr'
  obtain ⟨u, e, d, n, hu, rfl⟩ := hostEffect_of_access hr ht
  obtain ⟨hinv, hbusy, hres, hdone, hel⟩ := h.hostEffect hp hu
  exact ⟨_, hc, hinv.congr rfl rfl rfl, hbusy, hres, hdone, hel⟩

theorem Sending.cycle (h : Sending s₀ k s) (hp : LeavesSendRunning p) (hk : k + p.usTick.toNat < 4992) :
    ∃ t, Machine.cycle p s = .next t ∧ Sending s₀ (k + p.usTick.toNat) t := by
  obtain ⟨t, hc, ht⟩ := h.cycle_eq hp
  rw [hc]
  cases hu : p.usTick with
  | false => exact ⟨t, rfl, ht⟩
  | true => exact ht.tick (by simpa [hu] using hk)

theorem Sending.cycle_last (h : Sending s₀ 4991 s) (hp : LeavesSendRunning p) (hu : p.usTick = true) :
    ∃ t, Machine.cycle p s = .next (Machine.finishFrame t) ∧ Sending s₀ 4991 t := by
  obtain ⟨t, hc, ht⟩ := h.cycle_eq hp
  rw [hc, if_pos hu]
  exact ⟨t, ht.tick_last, ht⟩

theorem tickCount_cons (p : Pins) (ps : List Pins) : tickCount (p :: ps) = p.usTick.toNat + tickCount ps := by
  cases hu : p.usTick <;> simp [tickCount, hu, Nat.add_comm]

/-- Every schedule short of ABORT and reset takes the frame its ticks further, up to the last. -/
theorem Sending.runCycles {ps : List Pins} (h : Sending s₀ k s) (hp : ∀ p ∈ ps, LeavesSendRunning p)
    (hk : k + tickCount ps < 4992) : ∃ u, runCycles ps s = .next u ∧ Sending s₀ (k + tickCount ps) u := by
  induction ps generalizing s k with
  | nil => exact ⟨s, rfl, h⟩
  | cons p ps ih =>
    rw [tickCount_cons, ← Nat.add_assoc] at hk ⊢
    obtain ⟨t, hc, ht⟩ := h.cycle (hp p List.mem_cons_self) (by omega)
    obtain ⟨u, hrun, hu⟩ := ih ht (fun q hq => hp q (List.mem_cons_of_mem p hq)) hk
    exact ⟨u, by rw [Machine.runCycles, hc]; exact hrun, hu⟩

theorem Sendable.runCycles {ps : List Pins} (h : Sendable s) (hp : ∀ p ∈ ps, LeavesSendRunning p)
    (hk : tickCount ps < 4992) :
    ∃ u, runCycles ps (startSerializer s) = .next u ∧ Sending s (tickCount ps) u := by
  simpa using h.sending.runCycles hp (by omega)

theorem runCycles_append (ps qs : List Pins) (h : runCycles ps s = .next t) :
    runCycles (ps ++ qs) s = runCycles qs t := by
  induction ps generalizing s with
  | nil => cases h; rfl
  | cons p ps ih =>
    rw [List.cons_append, runCycles]
    rw [runCycles] at h
    split at h
    · exact ih h
    · cases h
    · cases h

/-- Settles O36: the frame is at its last tick after 4991 ticks, not before, and the next one ends it. -/
theorem airTimeIsExact : Obligations.AirTimeIsExact := by
  intro s hinv hv hb
  have hs : Sendable s := ⟨hinv, hv, hb⟩
  refine ⟨hinv.sum_heldDurations hv, _, hs.exec_send, fun ps hps hk => ?_, fun ps p hps hp hk hu => ?_⟩
  · obtain ⟨u, hrun, hu⟩ := hs.runCycles hps hk
    exact ⟨u, hrun, hu.busy, hu.sdone⟩
  · obtain ⟨t, hrun, ht⟩ := hs.runCycles hps (by omega)
    rw [hk] at ht
    obtain ⟨u, hc, -⟩ := ht.cycle_last hp hu
    refine ⟨finishFrame u, ?_, rfl, rfl, rfl⟩
    rw [runCycles_append ps [p] hrun, runCycles, hc]
    rfl

end Sys2Proof.Machine
end

section
/-! SUPPORT. What a send puts on `ir_mark`, tick by tick (41_serializer.md R136), and that the next SEND repeats it
(R138). -/

namespace Sys2Proof.Machine

variable {s t s₀ s₁ : State} {k : Nat}

/-! ### The run that holds a message bit -/

/-- Run `i` of a message spelled out covers the bits from the sum of the runs before it, with the first bit's value for
even `i` and the other for odd (40_encode_datapath.md R111). -/
theorem getElem?_bitsOfDurations {b : Bool} {ls : List Nat} {i j : Nat} (hi : (ls.take i).sum ≤ j)
    (hj : j < (ls.take (i + 1)).sum) :
    (bitsOfDurations b (ls.map (· * 208)))[j]? = some (b ^^ decide (i % 2 = 1)) := by
  induction ls generalizing b i j with
  | nil => simp at hj
  | cons l ls ih =>
    have hlen : (List.replicate l b).length = l := List.length_replicate
    rw [List.map_cons, bitsOfDurations, Nat.mul_div_cancel _ (by decide)]
    cases i with
    | zero =>
      have hl : j < l := by simpa using hj
      simp [List.getElem?_append_left, hl]
    | succ i =>
      rw [List.take_succ_cons, List.sum_cons] at hi hj
      rw [List.getElem?_append_right (by omega), hlen, ih (i := i) (by omega) (by omega)]
      have hodd : decide ((i + 1) % 2 = 1) = !decide (i % 2 = 1) := by
        rw [← decide_not, decide_eq_decide]
        omega
      rw [hodd, Bool.not_xor, Bool.xor_not]

/-- The message of a triple starts with a start bit, `0`, and its runs spell it out. -/
theorem bitsOfDurations_runs_messageOf (c : Triple) :
    bitsOfDurations false ((runs (messageOf c.ch c.orange c.yellow)).map (· * 208)) =
      messageOf c.ch c.orange c.yellow :=
  bitsOfDurations_runs rfl

/-- A bit of MSG is `1` in the runs of odd index. -/
theorem msgBit_encodeTriple {c : Triple} {i j : Nat}
    (hi : ((runs (messageOf c.ch c.orange c.yellow)).take i).sum ≤ j)
    (hj : j < ((runs (messageOf c.ch c.orange c.yellow)).take (i + 1)).sum) :
    msgBit (encodeTriple c) j = decide (i % 2 = 1) := by
  have hbit := getElem?_bitsOfDurations (b := false) hi hj
  have hle := sum_take_runs_le c (i + 1)
  rw [bitsOfDurations_runs_messageOf, messageOf_getElem? c (by omega)] at hbit
  simpa using hbit

/-! ### The envelope of a send -/

theorem Sending.irMark_eq (h : Sending s₀ k s) : irMark s = decide (s.ser.idx.toNat % 2 = 0) := by
  obtain ⟨-, -, -, -, hlevel⟩ := (serializerOk_of_busy h.busy).1 h.inv.serializer
  exact hlevel

/-- Up to the pause the line is the message's bit of the tick, a `0` sent as mark (R136). -/
theorem Sending.irMark_of_lt (h : Sending s₀ k s) (hk : k < 4784) : irMark s = !msgBit s₀.res (k / 208) := by
  obtain ⟨hi, -, hle, hlt⟩ := h.entry
  obtain ⟨c, hc⟩ := h.inv.res_eq_encodeTriple h.valid
  rw [h.irMark_eq, ← h.res]
  rw [hc] at hi hle hlt ⊢
  rw [sum_take_heldDurations hi.le, if_neg hi.ne] at hle
  rw [sum_take_heldDurations (i := s.ser.idx.toNat + 1) hi] at hlt
  have hj : k / 208 < ((runs (messageOf c.ch c.orange c.yellow)).take (s.ser.idx.toNat + 1)).sum := by
    split at hlt
    · next hlast =>
      rw [hlast, encodeTriple_runcnt_toNat, List.take_length, runs_sum, messageOf_length]
      omega
    · omega
  rw [msgBit_encodeTriple (by omega) hj, ← decide_not, decide_eq_decide]
  omega

/-- From the pause on the last entry is current, whose index is odd since the run count is even
(40_encode_datapath.md R114). -/
theorem Sending.irMark_of_le (h : Sending s₀ k s) (hk : 4784 ≤ k) : irMark s = false := by
  obtain ⟨c, hc⟩ := h.inv.res_eq_encodeTriple h.valid
  have heven := (runcnt_bounds c).1
  rw [← hc, ← h.last_entry hk] at heven
  rw [h.irMark_eq, decide_eq_false_iff_not]
  omega

/-- Settles O37: the entry a tick lies in is the run that holds the tick's message bit, or the pause. -/
theorem envelopeIsTheMessage : Obligations.EnvelopeIsTheMessage := by
  intro s hinv hv hb
  have hs : Sendable s := ⟨hinv, hv, hb⟩
  refine ⟨_, hs.exec_send, fun ps hps => ⟨fun hk => ?_, fun hk hend => ?_⟩⟩
  · obtain ⟨u, hrun, hu⟩ := hs.runCycles hps (by omega)
    exact ⟨u, hrun, hu.irMark_of_lt hk⟩
  · obtain ⟨u, hrun, hu⟩ := hs.runCycles hps hend
    exact ⟨u, hrun, hu.irMark_of_le hk⟩

/-! ### Two sends of one result -/

/-- An entry that has begun comes no later than one that has not ended. -/
theorem index_le_of_sum_take {ls : List Nat} {i j : Nat} (hi : (ls.take i).sum ≤ k) (hj : k < (ls.take (j + 1)).sum) :
    i ≤ j := by
  by_contra hlt
  have hmono : (ls.take (j + 1)).sum ≤ (ls.take i).sum := List.monotone_sum_take ls (by omega)
  omega

theorem serStat_eq {a b : SerStat} (hidx : a.idx.toNat = b.idx.toNat) (hlevel : a.level = b.level)
    (hrem : a.rem.toNat = b.rem.toNat) : a = b := by
  cases a
  cases b
  exact (SerStat.mk.injEq ..).mpr ⟨BitVec.eq_of_toNat_eq hidx, hlevel, BitVec.eq_of_toNat_eq hrem⟩

/-- SERSTAT is given by the result held and the ticks since the SEND. -/
theorem Sending.ser_eq (h : Sending s₀ k s) (h' : Sending s₁ k t) (hres : s₁.res = s₀.res) : t.ser = s.ser := by
  have hst : t.res = s.res := by rw [h.res, h'.res, hres]
  obtain ⟨-, -, hle, hlt⟩ := h.entry
  obtain ⟨-, -, hle', hlt'⟩ := h'.entry
  rw [hst] at hle' hlt'
  have hidx : t.ser.idx.toNat = s.ser.idx.toNat :=
    le_antisymm (index_le_of_sum_take hle' hlt) (index_le_of_sum_take hle hlt')
  have hrem : t.ser.rem.toNat = s.ser.rem.toNat := by
    have hel := h.elapsed
    have hel' := h'.elapsed
    rw [hst, hidx] at hel'
    omega
  have hlevel : t.ser.level = s.ser.level := by
    have hmark := h'.irMark_eq
    rwa [hidx, ← h.irMark_eq] at hmark
  exact serStat_eq hidx hlevel hrem

/-- `k` ticks after a SEND from `s₀`: under way, or over with the result held. -/
def AfterSend (s₀ : State) (k : Nat) (s : State) : Prop :=
  (k < 4992 ∧ Sending s₀ k s) ∨ (4992 ≤ k ∧ Sendable s ∧ s.res = s₀.res)

theorem leavesSendRunning_tickPins : LeavesSendRunning tickPins := ⟨rfl, fun ⟨_, hsel, _⟩ => by cases hsel⟩

theorem AfterSend.cycle_tickPins (h : AfterSend s₀ k s) :
    ∃ t, cycle tickPins s = .next t ∧ AfterSend s₀ (k + 1) t := by
  obtain ⟨hk, h⟩ | ⟨hk, h, hres⟩ := h
  · by_cases hlast : k + 1 < 4992
    · obtain ⟨t, hc, ht⟩ := h.cycle leavesSendRunning_tickPins hlast
      exact ⟨t, hc, .inl ⟨hlast, ht⟩⟩
    · obtain rfl : k = 4991 := by omega
      obtain ⟨t, hc, ht⟩ := h.cycle_last leavesSendRunning_tickPins rfl
      exact ⟨_, hc, .inr ⟨le_rfl, ht.finishFrame, ht.res⟩⟩
  · exact ⟨_, cycle_tickPins_of_idle h.idle, .inr ⟨by omega, ⟨h.inv.congr rfl rfl rfl, h.valid, h.idle⟩, hres⟩⟩

theorem AfterSend.runTicks (h : AfterSend s₀ k s) (n : Nat) :
    ∃ t, runTicks n s = .next t ∧ AfterSend s₀ (k + n) t := by
  induction n generalizing s k with
  | zero => exact ⟨s, rfl, h⟩
  | succ n ih =>
    obtain ⟨t, hc, ht⟩ := h.cycle_tickPins
    obtain ⟨u, hrun, hu⟩ := ih ht
    exact ⟨u, (runTicks_succ n hc).trans hrun, by rwa [Nat.add_assoc, Nat.add_comm 1 n] at hu⟩

theorem Sendable.runTicks (h : Sendable s) (k : Nat) :
    ∃ t, runTicks k (startSerializer s) = .next t ∧ AfterSend s k t := by
  have hstart : AfterSend s 0 (startSerializer s) := .inl ⟨by decide, h.sending⟩
  simpa using hstart.runTicks k

theorem Sendable.ser_eq (h : Sendable s) : s.ser = SerStat.zero :=
  (serializerOk_of_idle h.idle).1 h.inv.serializer

theorem AfterSend.serializer_eq (h : AfterSend s₀ k s) (h' : AfterSend s₁ k t) (hres : s₁.res = s₀.res) :
    t.ser = s.ser ∧ t.status.sbusy = s.status.sbusy := by
  obtain ⟨hk, h⟩ | ⟨hk, h, -⟩ := h <;> obtain ⟨hk', h'⟩ | ⟨hk', h', -⟩ := h'
  · exact ⟨h.ser_eq h' hres, h'.busy.trans h.busy.symm⟩
  · omega
  · omega
  · exact ⟨h'.ser_eq.trans h.ser_eq.symm, h'.idle.trans h.idle.symm⟩

theorem AfterSend.irMark_of_le (h : AfterSend s₀ k s) (hk : 4784 ≤ k) : irMark s = false := by
  obtain ⟨-, h⟩ | ⟨-, h, -⟩ := h
  · exact h.irMark_of_le hk
  · exact congrArg SerStat.level h.ser_eq

/-- Settles O38: 4992 ticks leave a state that can send the same result, and SERSTAT follows from the result and the
ticks. -/
theorem frameCanBeSentAgain : Obligations.FrameCanBeSentAgain := by
  intro s hinv hv hb
  have hs : Sendable s := ⟨hinv, hv, hb⟩
  obtain ⟨u, hrun, ⟨hlt, -⟩ | ⟨-, hu, hres⟩⟩ := hs.runTicks 4992
  · omega
  refine ⟨_, u, _, hs.exec_send, hrun, hu.valid, hu.idle, hres, hu.exec_send, fun k => ?_⟩
  obtain ⟨v, hrunv, hfirst⟩ := hs.runTicks k
  obtain ⟨w, hrunw, hsecond⟩ := hu.runTicks k
  obtain ⟨hser, hbusy⟩ := hsecond.serializer_eq hfirst hres.symm
  exact ⟨v, w, hrunv, hrunw, hser, congrArg SerStat.level hser, hbusy, hfirst.irMark_of_le⟩

end Sys2Proof.Machine
end

section
/-! SUPPORT. The commands one by one: the equation of `exec` for each path of its rule (42_commands.md R151 to R155), and
what the write of a word to CMD runs (R150, R156). -/

namespace Sys2Proof.Machine

variable {p : Pins} {s t : State} {off : Offset} {v w : Word} {i : Instr}

/-! ### The paths of each command -/

/-- ENCODE, SEND and CLEAR wait for no frame: while one is being sent they are BUSY. -/
theorem exec_of_busy (hi : i = .encode ∨ i = .send ∨ i = .clear) (hb : s.status.sbusy = true) :
    exec i s = .next (raiseError .busy s) := by
  obtain rfl | rfl | rfl := hi
  · simp [exec, execEncode, hb]
  · simp [exec, execSend, hb]
  · simp [exec, execClear, hb]

theorem exec_encode_of_not_member (hb : s.status.sbusy = false) (hc : s.ctrl.strict = true) (hm : ¬ IsMember s.inp) :
    exec .encode s = .next (raiseError .invalidCode s) := by
  simp [exec, execEncode, hb, hc, hasNonMember_iff.2 hm]

theorem exec_send_of_not_valid (hb : s.status.sbusy = false) (hv : s.status.valid = false) :
    exec .send s = .next (raiseError .notValid s) := by
  simp [exec, execSend, hb, hv]

theorem exec_send_of_valid (hb : s.status.sbusy = false) (hv : s.status.valid = true) :
    exec .send s = .next (startSerializer s) := by
  simp [exec, execSend, hb, hv]

theorem exec_abort_of_busy (hb : s.status.sbusy = true) : exec .abort s = .next (stopSerializer s) := by
  simp [exec, execAbort, hb]

theorem exec_abort_of_idle (hb : s.status.sbusy = false) : exec .abort s = .next s := by
  simp [exec, execAbort, hb]

theorem exec_clear_of_idle (hb : s.status.sbusy = false) : exec .clear s = .next (clearResults s) := by
  simp [exec, execClear, hb]

/-- Settles O18: NOP answers its own state. -/
theorem nopHasNoEffect : Obligations.NopHasNoEffect := fun _ => rfl

/-- Settles O19: the three paths, with CKOVF and INVCODE in numbers. -/
theorem encodeFollowsItsRule : Obligations.EncodeFollowsItsRule := by
  refine fun s => ⟨exec_of_busy (.inl rfl), exec_encode_of_not_member, fun hb hc => ?_⟩
  rw [exec_encode hb hc, checkOverflows_eq, hasNonMember_eq]
  rfl

/-- Settles O20: the three paths; the invariant lets a frame be sent only while a result is held. -/
theorem sendFollowsItsRule : Obligations.SendFollowsItsRule := by
  refine fun s => ⟨exec_of_busy (.inr (.inl rfl)), exec_send_of_not_valid, exec_send_of_valid, fun hinv hb => ?_⟩
  obtain ⟨hv, -⟩ := (serializerOk_of_busy hb).1 hinv.serializer
  exact hv

/-- Settles O21: the two paths. -/
theorem abortFollowsItsRule : Obligations.AbortFollowsItsRule := fun _ => ⟨exec_abort_of_busy, exec_abort_of_idle⟩

/-- Settles O22: the two paths; a CLEAR leaves the machine idle, and clearing what is clear changes nothing. -/
theorem clearFollowsItsRule : Obligations.ClearFollowsItsRule := by
  refine fun s => ⟨exec_of_busy (.inr (.inr rfl)), fun hb => ⟨clearResults s, exec_clear_of_idle hb, ?_, rfl⟩⟩
  exact exec_clear_of_idle (s := clearResults s) hb

/-! ### A word written to CMD -/

theorem writeWindow_cmd (w : Word) (s : State) : writeWindow 0x08#8 w s = runCommandWord w s := rfl

theorem runCommandWord_of_decodes (hd : decodeWord w = .ok i) : runCommandWord w s = exec i s := by
  simp [runCommandWord, hd]

theorem runCommandWord_of_illegal (h : 5 ≤ w.toNat) : runCommandWord w s = .next (raiseError .illegalCmd s) := by
  simp [runCommandWord, decodeWord_eq_error_iff.2 ⟨h, rfl⟩]

/-- The host's part of a cycle with a defined write: the window is written, then the write is answered. -/
theorem hostAccess_of_write (hp : Writes p off v) (ha : off.toNat % 4 = 0) (h : writeWindow off v s = .next t) :
    hostAccess p s = .next (respondWrite t) := by
  obtain ⟨-, hs, hw, hsize, rfl, rfl⟩ := hp
  simp [hostAccess, busWrite, hs, hw, accessIsDefined_iff.2 ⟨hsize, ha⟩, h]

/-- Out of reset the tick, where the pins carry one, follows the host's part (70_reset_and_hazards.md R198). -/
theorem cycle_of_hostAccess (hr : p.rstN = true) (h : hostAccess p s = .next t) :
    cycle p s = if p.usTick then tick t else .next t := by
  simp [cycle, hr, h]

/-- Settles O14: the step is the cycle of the schedule's first pins, whose access runs the command. -/
theorem stepRunsTheDecodedCommand : Obligations.StepRunsTheDecodedCommand := by
  intro s t p rest w i hin hp hd ht
  have ⟨hr, _⟩ := hp
  have hwrite : writeWindow 0x08#8 w { s with inputs := rest } = .next t := by
    rw [writeWindow_cmd, runCommandWord_of_decodes hd, ht]
  rw [step_cons hin, cycle_of_hostAccess hr (hostAccess_of_write hp rfl hwrite)]

/-- Settles O15: a word of 5 or more does not decode, and ILLEGAL_CMD is raised before SBUSY is looked at. -/
theorem illegalWordRaisesIllegalCmd : Obligations.IllegalWordRaisesIllegalCmd := by
  intro p s w hp ht h5
  exact completesWrite_of_writeWindow (t := raiseError .illegalCmd s) hp ht rfl (runCommandWord_of_illegal h5)

end Sys2Proof.Machine
end

section
/-! SUPPORT. The frame of the commands: what each effect of a command leaves as it was, register by register and at the
offsets of the window (42_commands.md R151 to R155, 60_exceptions.md R172). -/

namespace Sys2Proof.Machine

variable {s t : State} {off : Offset} {i : Instr}

/-! ### Offsets that read as before -/

/-- Outside STATUS and the results the window shows CTRL, IN and SERSTAT only. -/
theorem readWindow_of_not_result (hctrl : t.ctrl = s.ctrl) (hinp : t.inp = s.inp) (hser : t.ser = s.ser)
    (hstatus : off ≠ 0x0C#8) (hres : ¬ isResultOffset off) : readWindow t off = readWindow s off := by
  refine readWindow_congr fun r hr => ?_
  obtain rfl := regAt_eq_some off r hr
  cases r with
  | ctrl => exact congrArg ctrlWord hctrl
  | inp => exact congrArg inWord hinp
  | cmd => rfl
  | status => exact absurd rfl hstatus
  | serstat => exact congrArg serstatWord hser
  | dur j =>
    refine absurd (.inr ?_) hres
    simp only [regOffset, BitVec.toNat_ofNat]
    omega
  | check | bytes | parity | msg | runcnt => exact absurd (.inl (by decide)) hres

/-- Outside STATUS and SERSTAT the window shows CTRL, IN and the results only. -/
theorem readWindow_of_res_eq (hctrl : t.ctrl = s.ctrl) (hinp : t.inp = s.inp) (hres : t.res = s.res)
    (hstatus : off ≠ 0x0C#8) (hser : off ≠ 0x24#8) : readWindow t off = readWindow s off := by
  refine readWindow_congr fun r hr => ?_
  obtain rfl := regAt_eq_some off r hr
  cases r with
  | ctrl => exact congrArg ctrlWord hctrl
  | inp => exact congrArg inWord hinp
  | cmd => rfl
  | status => exact absurd rfl hstatus
  | serstat => exact absurd rfl hser
  | check => exact congrArg checkWord hres
  | bytes => exact congrArg bytesWord hres
  | parity => exact congrArg parityWord hres
  | msg => exact congrArg msgWord hres
  | runcnt => exact congrArg runcntWord hres
  | dur j => exact congrArg (durWord · j) hres

/-! ### What a command's effect leaves -/

theorem CommandEffect.ctrl (h : CommandEffect s i t) : t.ctrl = s.ctrl := by cases h <;> rfl

theorem CommandEffect.inp (h : CommandEffect s i t) : t.inp = s.inp := by cases h <;> rfl

theorem CommandEffect.sdone (h : CommandEffect s i t) : t.status.sdone = s.status.sdone := by cases h <;> rfl

/-- A command answers no access and looks at no schedule: the cycle does. -/
theorem CommandEffect.bus (h : CommandEffect s i t) :
    t.busErr = s.busErr ∧ t.busRdata = s.busRdata ∧ t.inputs = s.inputs ∧ t.freeCount = s.freeCount := by
  cases h <;> exact ⟨rfl, rfl, rfl, rfl⟩

/-- A command to which no error applies leaves ERR and ERRCODE. -/
theorem CommandEffect.error (h : CommandEffect s i t) (he : firstError (encode i) s = none) :
    t.status.err = s.status.err ∧ t.status.errcode = s.status.errcode := by
  cases h with
  | busy _ hi hb =>
    obtain rfl | rfl | rfl := hi
    · simp [encode, firstError_encode_eq_none, hb] at he
    · simp [encode, firstError_send_eq_none, hb] at he
    · simp [encode, firstError_clear_eq_none, hb] at he
  | notValid _ hv => simp [encode, firstError_send_eq_none, hv] at he
  | invalidCode _ hc hm => simp [encode, firstError_encode_eq_none, hc, hm] at he
  | _ => exact ⟨rfl, rfl⟩

theorem CommandEffect.eq_of_nop (h : CommandEffect s .nop t) : t = s := by
  cases h with
  | unchanged => rfl
  | busy _ hi => simp at hi

/-- ENCODE and CLEAR leave the serializer. -/
theorem CommandEffect.serializer (h : CommandEffect s i t) (hi : i = .encode ∨ i = .clear) :
    t.ser = s.ser ∧ t.status.sbusy = s.status.sbusy := by
  cases h with
  | started | stopped => simp at hi
  | _ => exact ⟨rfl, rfl⟩

theorem CommandEffect.edone (h : CommandEffect s i t) (hi : i ≠ .encode) : t.status.edone = s.status.edone := by
  cases h with
  | encoded => exact absurd rfl hi
  | _ => rfl

/-- SEND and ABORT leave the held result and its flags. -/
theorem CommandEffect.held (h : CommandEffect s i t) (hi : i = .send ∨ i = .abort) :
    t.res = s.res ∧ t.status.valid = s.status.valid ∧ t.status.ckovf = s.status.ckovf ∧
      t.status.invcode = s.status.invcode := by
  cases h with
  | encoded | cleared => simp at hi
  | _ => exact ⟨rfl, rfl, rfl, rfl⟩

/-- Settles O23: each clause is what the command's effect leaves; the window shows no register that changed. -/
theorem commandsLeaveTheRestUnchanged : Obligations.CommandsLeaveTheRestUnchanged := by
  intro i s t hexec
  have h := exec_cases hexec
  refine ⟨⟨h.ctrl, h.inp, h.sdone, h.bus⟩, h.error, ?_, fun hi => ?_, ?_, fun hi => ?_⟩
  · rintro rfl
    exact h.eq_of_nop
  · obtain ⟨hser, hbusy⟩ := h.serializer hi
    exact ⟨hser, hbusy, fun _ => readWindow_of_not_result h.ctrl h.inp hser⟩
  · rintro rfl
    exact h.edone (by decide)
  · obtain ⟨hres, hvalid, hckovf, hinvcode⟩ := h.held hi
    have hedone := h.edone (by rintro rfl; simp at hi)
    exact ⟨hres, hvalid, hedone, hckovf, hinvcode, fun _ => readWindow_of_res_eq h.ctrl h.inp hres⟩

end Sys2Proof.Machine
end

section
/-! SUPPORT. Command errors: the one a command reports, and that a held one steers no command (60_exceptions.md R172 to
R174). -/

namespace Sys2Proof.Machine

variable {s s' t : State} {i : Instr} {code : BitVec 4}

/-! ### The error that is reported -/

/-- A command to which an error applies records the first one and does nothing else. -/
theorem CommandEffect.eq_withError (h : CommandEffect s i t) (he : firstError (encode i) s = some code) :
    t = withError code s := by
  cases h with
  | unchanged _ hi =>
    obtain rfl | ⟨rfl, -⟩ := hi <;> simp [firstError_eq, encode] at he
  | busy _ hi hb =>
    obtain rfl : 2#4 = code := by obtain rfl | rfl | rfl := hi <;> simpa [firstError_eq, encode, hb] using he
    rfl
  | notValid hb hv =>
    obtain rfl : 3#4 = code := by simpa [firstError_eq, encode, hb, hv] using he
    rfl
  | invalidCode hb hc hm =>
    obtain rfl : 4#4 = code := by simpa [firstError_eq, encode, hb, hc, hm] using he
    rfl
  | encoded hb hc => simp [encode, firstError_encode_eq_none.2 ⟨hb, hc⟩] at he
  | started hb hv => simp [encode, firstError_send_eq_none.2 ⟨hb, hv⟩] at he
  | stopped => simp [firstError_eq, encode] at he
  | cleared hb => simp [encode, firstError_clear_eq_none.2 hb] at he

/-- Settles O16: a word of no command is ILLEGAL_CMD; any other runs its command, whose effect is the error or leaves
ERR and ERRCODE. -/
theorem firstApplicableErrorIsReported : Obligations.FirstApplicableErrorIsReported := by
  intro w s
  cases hd : decodeWord w with
  | error e =>
    have hlt := lt_toNat_of_decodeWord_error hd
    have hfirst : firstError w s = some 1#4 := if_pos hlt
    refine ⟨fun code hcode => ?_, fun hnone => ?_⟩
    · obtain rfl := Option.some.inj (hfirst.symm.trans hcode)
      exact runCommandWord_of_illegal hlt
    · simp [hfirst] at hnone
  | ok i =>
    obtain rfl := eq_encode_of_decodeWord hd
    obtain ⟨t, ht, he⟩ := exec_effect i s
    rw [runCommandWord_of_decodes hd, ht]
    exact ⟨fun code hcode => congrArg _ (he.eq_withError hcode), fun hnone => ⟨t, rfl, he.error hnone⟩⟩

/-! ### A held error steers no command -/

/-- The effects are the paths of the commands' rules. -/
theorem CommandEffect.exec_eq (h : CommandEffect s i t) : exec i s = .next t := by
  cases h with
  | unchanged _ hi =>
    obtain rfl | ⟨rfl, hb⟩ := hi
    · rfl
    · exact exec_abort_of_idle hb
  | busy _ hi hb => exact exec_of_busy hi hb
  | notValid hb hv => exact exec_send_of_not_valid hb hv
  | invalidCode hb hc hm => exact exec_encode_of_not_member hb hc (hasNonMember_iff.1 hm)
  | encoded hb hc => exact exec_encode hb (hc.imp_right hasNonMember_eq_false_iff.1)
  | started hb hv => exact exec_send_of_valid hb hv
  | stopped hb => exact exec_abort_of_busy hb
  | cleared hb => exact exec_clear_of_idle hb

/-- What decides a command's effect is none of ERR and ERRCODE, and the effect keeps the two or overwrites both. -/
theorem CommandEffect.exists_agreeButError (h : CommandEffect s i t) (ha : AgreeButError s s') :
    ∃ t', CommandEffect s' i t' ∧ AgreeButError t t' := by
  obtain ⟨err, code, rfl⟩ : ∃ err code, s' = { s with status := { s.status with err := err, errcode := code } } :=
    ⟨_, _, ha⟩
  cases h with
  | unchanged _ hi => exact ⟨_, .unchanged _ hi, rfl⟩
  | busy _ hi hb => exact ⟨_, .busy _ hi hb, rfl⟩
  | notValid hb hv => exact ⟨_, .notValid hb hv, rfl⟩
  | invalidCode hb hc hm => exact ⟨_, .invalidCode hb hc hm, rfl⟩
  | encoded hb hc => exact ⟨_, .encoded hb hc, rfl⟩
  | started hb hv => exact ⟨_, .started hb hv, rfl⟩
  | stopped hb => exact ⟨_, .stopped hb, rfl⟩
  | cleared hb => exact ⟨_, .cleared hb, rfl⟩

/-- Settles O17: the two states take the same path, and what it writes differs in ERR and ERRCODE at most. -/
theorem heldErrorDoesNotSteerCommands : Obligations.HeldErrorDoesNotSteerCommands := by
  intro i s s' ha
  obtain ⟨t, ht, he⟩ := exec_effect i s
  obtain ⟨t', he', ha'⟩ := he.exists_agreeButError ha
  exact ⟨t, t', ht, he'.exec_eq, ha'⟩

end Sys2Proof.Machine
end

section
/-! SUPPORT. No schedule of cycles stops a machine that meets the invariant (41_serializer.md R132, log 8). -/

namespace Sys2Proof.Machine

variable {s : State}

/-- The invariant keeps the next index inside the table (log 8). -/
theorem Inv.exists_tick_eq_next (h : Inv s) : ∃ t, tick s = .next t := by
  cases hb : s.status.sbusy with
  | false => exact ⟨s, tick_of_idle hb⟩
  | true =>
    obtain ⟨hpos, hidx, hcnt⟩ := h.busy_bounds hb
    by_cases h2 : 2 ≤ s.ser.rem.toNat
    · exact ⟨_, tick_of_two_le hb h2⟩
    have hr : s.ser.rem = 1#16 := by bv_omega
    by_cases hi : s.ser.idx.toNat + 1 = s.res.runcnt.toNat
    · exact ⟨_, tick_of_last_entry hb hr hi⟩
    · exact ⟨_, tick_of_not_last_entry hb hr hi (by omega)⟩

theorem Inv.exists_cycle_eq_next (h : Inv s) (p : Pins) : ∃ t, Machine.cycle p s = .next t := by
  obtain ⟨-, hc⟩ | ⟨hr, t, ht, hc⟩ := cycle_effect p s
  · exact ⟨_, hc⟩
  obtain ⟨u, e, d, n, hu, rfl⟩ := hostEffect_of_access hr ht
  have hinv : Inv (withResponse e d n u) := (h.hostEffect hu).congr rfl rfl rfl
  rw [hc]
  split
  · exact hinv.exists_tick_eq_next
  · exact ⟨_, rfl⟩

/-- Settles O46, by induction on the schedule: each cycle answers a next state and keeps the invariant. -/
theorem noScheduleStopsTheMachine : Obligations.NoScheduleStopsTheMachine := by
  intro ps
  induction ps with
  | nil => exact fun s h => ⟨s, rfl, h⟩
  | cons p ps ih =>
    intro s h
    obtain ⟨t, hc⟩ := h.exists_cycle_eq_next p
    rw [runCycles, hc]
    exact ih t (h.cycle hc)

end Sys2Proof.Machine
end

section
/-! SUPPORT. The event and enable bits behind `irq` (60_exceptions.md R176). -/

namespace Sys2Proof.Machine

/-- The mask 0xE picks bits 3:1. -/
theorem and_fourteen_ne_zero_iff (v : Word) :
    v &&& 0x0000000E#32 ≠ 0#32 ↔ v.getLsbD 1 = true ∨ v.getLsbD 2 = true ∨ v.getLsbD 3 = true := by
  have hmask : 0x0000000E#32 = 0#28 ++ bit true ++ bit true ++ bit true ++ bit false := rfl
  have hbits : ∀ a b c : Bool,
      0#28 ++ bit c ++ bit b ++ bit a ++ bit false ≠ 0#32 ↔ a = true ∨ b = true ∨ c = true := by decide
  rw [BitVec.and_comm, hmask]
  repeat rw [append_and]
  simp (disch := decide) only [extractLsb'_extractLsb', extractLsb'_one, bit_and_bit, BitVec.zero_and,
    Bool.true_and, Bool.false_and]
  exact hbits _ _ _

/-- Settles O40: bit k + 1 of STATUS meets bit k of CTRL for k from 1 to 3, and each such pair is an event and its
enable. -/
theorem irqIsTheEnabledEvents : Obligations.IrqIsTheEnabledEvents := by
  intro s
  obtain ⟨-, -, hedone, hsdone, herr, -⟩ := statusWord_bits s.status
  obtain ⟨-, hieEdone, hieSdone, hieErr⟩ := ctrlWord_fields s.ctrl
  rw [Bool.eq_iff_iff, decide_eq_true_iff, readWindow_status, readWindow_ctrl, and_fourteen_ne_zero_iff]
  simp only [BitVec.getLsbD_and, BitVec.getLsbD_ushiftRight, Nat.reduceAdd, hedone, hsdone, herr, hieEdone,
    hieSdone, hieErr]
  simp only [irq, Bool.or_eq_true, or_assoc]

end Sys2Proof.Machine
end

section
/-! SUPPORT. Reset, a send that waits for its ticks, and the order of access and tick in one cycle
(70_reset_and_hazards.md R190, R195, R198, R199). -/

namespace Sys2Proof.Machine

variable {p : Pins} {ps : List Pins} {s t u : State} {off : Offset} {v : Word}

/-! ### Reset -/

theorem readWindow_resetCycle (s : State) (off : Offset) : readWindow (resetCycle s) off = 0#32 := by
  have hsame : readWindow (resetCycle s) off = readWindow State.reset off :=
    readWindow_congr fun r _ => by cases r <;> rfl
  rw [hsame, resetLeavesEverythingZero.1 off]

/-- Settles O2: the cycle is the reset cycle, which looks at neither the access nor the tick. -/
theorem resetCycleWinsFromAnyState : Obligations.ResetCycleWinsFromAnyState := fun _ s hr =>
  ⟨resetCycle s, cycle_of_reset hr, readWindow_resetCycle s, rfl, rfl, rfl, rfl, rfl⟩

/-! ### A send that waits -/

/-- `u` is still in the send of `s`, at the same place and with the same results; SDONE is not newly set. -/
structure SendWaits (s u : State) : Prop where
  busy : u.status.sbusy = true
  ser : u.ser = s.ser
  res : u.res = s.res
  sdone : u.status.sdone = true → s.status.sdone = true

theorem SendWaits.trans (h : SendWaits s t) (h' : SendWaits t u) : SendWaits s u where
  busy := h'.busy
  ser := h'.ser.trans h.ser
  res := h'.res.trans h.res
  sdone := h.sdone ∘ h'.sdone

/-- Of the accesses to a busy machine only an ABORT touches the send (R195, R199). -/
theorem HostEffect.sendWaits (h : HostEffect p s u) (hb : s.status.sbusy = true)
    (hp : ¬ Writes p 0x08#8 0x00000003#32) : SendWaits s u := by
  obtain ⟨-, habort⟩ | ⟨hser, hres⟩ := h.of_busy hb
  · exact absurd habort hp
  refine ⟨?_, hser, hres, fun hd => ?_⟩
  · by_contra hidle
    exact hp (h.sbusy.fall hb (Bool.eq_false_iff.2 hidle))
  · by_contra hs
    exact h.sdone.rise (Bool.eq_false_iff.2 hs) hd

/-- A cycle with no tick, no ABORT and no reset is its access. -/
theorem exists_cycle_sendWaits (hb : s.status.sbusy = true) (hp : LeavesSendRunning p) (ht : p.usTick = false) :
    ∃ t, cycle p s = .next t ∧ SendWaits s t := by
  obtain ⟨hr, habort⟩ := hp
  obtain ⟨t, hacc, ha⟩ := hostAccess_effect p s
  obtain ⟨u, e, d, n, hu, rfl⟩ := hostEffect_of_access hr ha
  obtain ⟨hbusy, hser, hres, hdone⟩ := hu.sendWaits hb habort
  exact ⟨_, (cycle_eq_hostAccess hr ht).trans hacc, hbusy, hser, hres, hdone⟩

theorem exists_runCycles_sendWaits (hb : s.status.sbusy = true)
    (hp : ∀ p ∈ ps, LeavesSendRunning p ∧ p.usTick = false) : ∃ u, runCycles ps s = .next u ∧ SendWaits s u := by
  induction ps generalizing s with
  | nil => exact ⟨s, rfl, hb, rfl, rfl, id⟩
  | cons p ps ih =>
    obtain ⟨hrun, htick⟩ := hp p List.mem_cons_self
    obtain ⟨t, hc, ht⟩ := exists_cycle_sendWaits hb hrun htick
    obtain ⟨u, hu, htu⟩ := ih ht.busy fun q hq => hp q (List.mem_cons_of_mem p hq)
    exact ⟨u, by rw [runCycles, hc]; exact hu, ht.trans htu⟩

/-- Settles O39, by induction on the schedule: each cycle leaves the send waiting. -/
theorem sendWaitsForTicks : Obligations.SendWaitsForTicks := by
  intro ps s hb hp
  obtain ⟨u, hu, hbusy, hser, hres, hdone⟩ := exists_runCycles_sendWaits hb hp
  exact ⟨u, hu, hbusy, hser, congrArg SerStat.level hser, hres, hdone⟩

/-! ### Access and tick in one cycle -/

/-- In a tick cycle the serializer ticks on the state that the answered write leaves (R198). -/
theorem cycle_of_write_of_tick (hp : Writes p off v) (ht : p.usTick = true) (ha : off.toNat % 4 = 0)
    (h : writeWindow off v s = .next t) : cycle p s = tick (respondWrite t) := by
  have ⟨hr, _⟩ := hp
  rw [cycle_of_hostAccess hr (hostAccess_of_write hp ha h), if_pos ht]

theorem writeWindow_send : writeWindow 0x08#8 0x00000002#32 s = exec .send s := rfl

theorem writeWindow_abort : writeWindow 0x08#8 0x00000003#32 s = exec .abort s := rfl

/-- Entry 0 outlasts the tick of its SEND's cycle, which counts it down (R197). -/
theorem cycle_of_send_of_tick (hp : Writes p 0x08#8 0x00000002#32) (ht : p.usTick = true)
    (hb : s.status.sbusy = false) (hv : s.status.valid = true) (hinv : Inv s) :
    cycle p s = .next (countDown (s.res.dur[0] - 1#16) (respondWrite (startSerializer s))) := by
  have hdur : 208 ≤ s.res.dur[0].toNat := hinv.le_dur hv (by decide) (hinv.runcnt_pos hv)
  have hrem : 2 ≤ (respondWrite (startSerializer s)).ser.rem.toNat := le_trans (by decide) hdur
  rw [cycle_of_write_of_tick hp ht rfl (writeWindow_send.trans (exec_send_of_valid hb hv))]
  exact tick_of_two_le rfl hrem

/-- After the ABORT the machine is idle and the tick finds nothing to do. -/
theorem cycle_of_abort_of_tick (hp : Writes p 0x08#8 0x00000003#32) (ht : p.usTick = true)
    (hb : s.status.sbusy = true) : cycle p s = .next (respondWrite (stopSerializer s)) := by
  rw [cycle_of_write_of_tick hp ht rfl (writeWindow_abort.trans (exec_abort_of_busy hb))]
  exact tick_of_idle rfl

/-- The final tick ends the frame on top of whatever the write to STATUS cleared. -/
theorem cycle_of_acknowledge_of_last_tick (hp : Writes p 0x0C#8 v) (ht : p.usTick = true)
    (hb : s.status.sbusy = true) (hend : AtFrameEnd s) :
    cycle p s = .next (finishFrame (respondWrite (acknowledge v s))) := by
  obtain ⟨hrem, hlast⟩ := hend
  rw [cycle_of_write_of_tick hp ht rfl (writeWindow_status v s)]
  exact tick_of_last_entry hb hrem hlast

/-- Settles O41: the host's part reads no tick pin; then the three writes, each with the tick that follows it. -/
theorem hostAccessComesBeforeTheTick : Obligations.HostAccessComesBeforeTheTick := by
  refine ⟨fun p s hr => ?_, fun p s hp ht hb hv hinv => ?_, fun p s hp ht hb => ?_,
    fun p s v hp ht hb hrem hlast => ?_⟩
  · obtain ⟨t, hacc, -⟩ := hostAccess_effect p s
    exact ⟨t, cycle_of_hostAccess (p := { p with usTick := false }) hr hacc,
      cycle_of_hostAccess (p := { p with usTick := true }) hr hacc⟩
  · exact ⟨_, cycle_of_send_of_tick hp ht hb hv hinv, rfl, rfl⟩
  · exact ⟨_, cycle_of_abort_of_tick hp ht hb, rfl, rfl, rfl⟩
  · exact ⟨_, cycle_of_acknowledge_of_last_tick hp ht hb ⟨hrem, hlast⟩, rfl, rfl⟩

end Sys2Proof.Machine
end
